-- ==== Sys2Proof/Word.lean ====
section
/-! DEFINITION. Words, rows and the fixed sets of names that the encodings of spec/02 to spec/14 choose among. -/

namespace Sys2Proof

/-- A byte. -/
abbrev Byte := BitVec 8
/-- A 64-bit register or address (R22, R81). -/
abbrev Word := BitVec 64
/-- A 256-byte scratchpad row or vector register (R3, R101). -/
abbrev Row := BitVec 2048
/-- A scalar or predicate register number (R36). -/
abbrev XReg := BitVec 6
/-- A vector register number v0 to v31 (R36). -/
abbrev VReg := BitVec 5
/-- A mask register number m0 to m15 (R36). -/
abbrev MReg := BitVec 4
/-- A stream register number s0 to s15 (R36). -/
abbrev SReg := BitVec 4
/-- A context of the module: core x 4 + context, as OWNER names it (R263). -/
abbrev CtxKey := BitVec 14
/-- A core number (R12). -/
abbrev CoreNo := BitVec 12

/-- The six slots of a bundle (R31). -/
inductive SlotId where
  | A | B | V0 | V1 | M | X
  deriving DecidableEq, Repr

/-- Element types, codes 0 to 12 (R6, R37). -/
inductive ETy where
  | f32 | bf16 | f16 | e4m3 | e5m2 | e3m2 | e2m3 | e2m1 | i8 | i16 | i32 | i64 | lq2
  deriving DecidableEq, Repr

/-- Rounding modes, codes 0 to 4 (R38). -/
inductive Rnd where
  | rne | rz | ru | rd | sr
  deriving DecidableEq, Repr

/-- Conditions of CMP, CMPI and VCMP, codes 0 to 11 (R85). -/
inductive Cond where
  | eq | ne | lt | le | gt | ge | ltu | leu | gtu | geu | tst | ntst
  deriving DecidableEq, Repr

/-- Operations of PLOG and MLOG, codes 0 to 9 (R86). -/
inductive LogOp where
  | and | or | xor | andn | orn | nand | nor | xnor | mov | not
  deriving DecidableEq, Repr

/-- Conditions of VFCMP, codes 0 to 7 (R108). -/
inductive VfCond where
  | eq | ne | lt | le | gt | ge | un | ord
  deriving DecidableEq, Repr

/-- Operations of AMO and AMOR, codes 0 to 10 (R181). -/
inductive AmoOp where
  | add | fadd | min | max | minu | maxu | and | or | xor | swap | cas
  deriving DecidableEq, Repr

/-- Operations of AMOG, codes 0 to 4 (R227). -/
inductive AmogOp where
  | add | fadd | min | max | or
  deriving DecidableEq, Repr

/-- Clasp's arrival queues, codes 0 to 4 (R256, R281). -/
inductive ClaspQ where
  | f | b | w | u | e
  deriving DecidableEq, Repr

/-- A vector source field: a register, or a stream head with its peek bit (R36, R103). -/
inductive VSrc where
  | v (r : VReg)
  | head (s : SReg) (peek : Bool)
  deriving DecidableEq, Repr

/-- Source of MGDRAIN (R166). -/
inductive GSrc where
  | g | ca | cs | kn
  deriving DecidableEq, Repr

/-- Scope of FENCE (R178). -/
inductive Scope where
  | cl | die | mod
  deriving DecidableEq, Repr

/-- The controls that Norlys may write and hold (R359). -/
inductive NorlysCtl where
  | pcap | stkrate | moduleReset | dieReset (die : BitVec 3) | portReset (port : BitVec 3)
  deriving DecidableEq, Repr

/-- One bit for each byte of a row. -/
abbrev Row256 := BitVec 256

end Sys2Proof
end

