-- ==== Sys2Proof/Syntax.lean ====
section
/-! DEFINITION. The steps of the part: one constructor per row of spec/opcode_table.json. The slot
instructions carry the operands of their encodings; the events carry what names their agent, and what the
spec leaves to the agent's choice. -/

namespace Sys2Proof

/-- A step of the part: a slot instruction of R47 to R50, or an event that comes about without one. -/
inductive Instr where
  -- issue and contexts (spec/02, spec/04)
  | nop
  -- scalar, register-register (R81, R82)
  | add (rd rs1 rs2 : XReg)
  | sub (rd rs1 rs2 : XReg)
  | and (rd rs1 rs2 : XReg)
  | or (rd rs1 rs2 : XReg)
  | xor (rd rs1 rs2 : XReg)
  | andn (rd rs1 rs2 : XReg)
  | shl (rd rs1 rs2 : XReg)
  | shr (rd rs1 rs2 : XReg)
  | sar (rd rs1 rs2 : XReg)
  | rol (rd rs1 rs2 : XReg)
  | mul (rd rs1 rs2 : XReg)
  | mulh (rd rs1 rs2 : XReg)
  | mulhu (rd rs1 rs2 : XReg)
  | div (rd rs1 rs2 : XReg)
  | divu (rd rs1 rs2 : XReg)
  | rem (rd rs1 rs2 : XReg)
  | remu (rd rs1 rs2 : XReg)
  | min (rd rs1 rs2 : XReg)
  | max (rd rs1 rs2 : XReg)
  | minu (rd rs1 rs2 : XReg)
  | maxu (rd rs1 rs2 : XReg)
  -- bit-field (R83)
  | clz (rd rs1 : XReg)
  | ctz (rd rs1 : XReg)
  | popc (rd rs1 : XReg)
  | bswap (rd rs1 : XReg)
  | extr (rd rs1 : XReg) (pos lenm1 : BitVec 6)
  | ins (rd rs1 : XReg) (pos lenm1 : BitVec 6)
  | sext (rd rs1 : XReg) (lenm1 : BitVec 6)
  | zext (rd rs1 : XReg) (lenm1 : BitVec 6)
  -- immediate (R84)
  | addi (rd rs : XReg) (imm : BitVec 32)
  | andi (rd rs : XReg) (imm : BitVec 32)
  | ori (rd rs : XReg) (imm : BitVec 32)
  | xori (rd rs : XReg) (imm : BitVec 32)
  | shli (rd rs : XReg) (sh : BitVec 6)
  | shri (rd rs : XReg) (sh : BitVec 6)
  | sari (rd rs : XReg) (sh : BitVec 6)
  | li (rd : XReg) (imm : BitVec 32)
  | lih (rd rs : XReg) (imm : BitVec 32)
  -- compares, predicates, select (R85 to R87)
  | cmp (c : Cond) (pd pe rs1 rs2 : XReg)
  | cmpi (c : Cond) (pd pe rs1 : XReg) (imm : BitVec 26)
  | plog (op : LogOp) (pd pe pa pb : XReg)
  | sel (rd pc rs1 rs2 : XReg)
  -- control transfer (R88, R89)
  | br (imm : BitVec 32)
  | brx (rs : XReg) (imm : BitVec 32)
  | call (rd : XReg) (imm : BitVec 32)
  | ret (rs : XReg)
  | loop (rd : XReg) (imm : BitVec 32)
  -- scalar scratchpad access, system registers, events (R92 to R100)
  | lds (rd base : XReg) (off : BitVec 32)
  | sts (rs base : XReg) (off : BitVec 32)
  | srget (rd : XReg) (sr : BitVec 12)
  | srset (sr : BitVec 12) (rs : XReg)
  | wfe (rd : XReg) (timeout : BitVec 32)
  | sev (mask : BitVec 4)
  | sevRemote (rs : XReg) (mask : BitVec 4)
  -- vector floating point (R105, R106)
  | vfadd (t : ETy) (vd : VReg) (vs1 vs2 : VSrc) (mk : MReg)
  | vfsub (t : ETy) (vd : VReg) (vs1 vs2 : VSrc) (mk : MReg)
  | vfmul (t : ETy) (vd : VReg) (vs1 vs2 : VSrc) (mk : MReg)
  | vfma (t : ETy) (vd : VReg) (vs1 vs2 vs3 : VSrc) (mk : MReg)
  | vfms (t : ETy) (vd : VReg) (vs1 vs2 vs3 : VSrc) (mk : MReg)
  | vfnma (t : ETy) (vd : VReg) (vs1 vs2 vs3 : VSrc) (mk : MReg)
  | vfmin (t : ETy) (vd : VReg) (vs1 vs2 : VSrc) (mk : MReg)
  | vfmax (t : ETy) (vd : VReg) (vs1 vs2 : VSrc) (mk : MReg)
  | vfdiv (t : ETy) (vd : VReg) (vs1 vs2 : VSrc) (mk : MReg)
  | vfsqrt (t : ETy) (vd : VReg) (vs1 : VSrc) (mk : MReg)
  | vfrcp (t : ETy) (vd : VReg) (vs1 : VSrc) (mk : MReg)
  | vfrsq (t : ETy) (vd : VReg) (vs1 : VSrc) (mk : MReg)
  | vfexp2 (t : ETy) (vd : VReg) (vs1 : VSrc) (mk : MReg)
  | vflog2 (t : ETy) (vd : VReg) (vs1 : VSrc) (mk : MReg)
  | vfabs (t : ETy) (vd : VReg) (vs1 : VSrc) (mk : MReg)
  | vfneg (t : ETy) (vd : VReg) (vs1 : VSrc) (mk : MReg)
  | vfclass (t : ETy) (vd : VReg) (vs1 : VSrc) (mk : MReg)
  -- vector integer (R107)
  | vadd (t : ETy) (vd : VReg) (vs1 vs2 : VSrc) (mk : MReg)
  | vsub (t : ETy) (vd : VReg) (vs1 vs2 : VSrc) (mk : MReg)
  | vmul (t : ETy) (vd : VReg) (vs1 vs2 : VSrc) (mk : MReg)
  | vmulh (t : ETy) (vd : VReg) (vs1 vs2 : VSrc) (mk : MReg)
  | vmin (t : ETy) (vd : VReg) (vs1 vs2 : VSrc) (mk : MReg)
  | vminu (t : ETy) (vd : VReg) (vs1 vs2 : VSrc) (mk : MReg)
  | vmax (t : ETy) (vd : VReg) (vs1 vs2 : VSrc) (mk : MReg)
  | vmaxu (t : ETy) (vd : VReg) (vs1 vs2 : VSrc) (mk : MReg)
  | vabs (t : ETy) (vd : VReg) (vs1 : VSrc) (mk : MReg)
  | vand (t : ETy) (vd : VReg) (vs1 vs2 : VSrc) (mk : MReg)
  | vor (t : ETy) (vd : VReg) (vs1 vs2 : VSrc) (mk : MReg)
  | vxor (t : ETy) (vd : VReg) (vs1 vs2 : VSrc) (mk : MReg)
  | vandn (t : ETy) (vd : VReg) (vs1 vs2 : VSrc) (mk : MReg)
  | vshl (t : ETy) (vd : VReg) (vs1 vs2 : VSrc) (mk : MReg)
  | vshr (t : ETy) (vd : VReg) (vs1 vs2 : VSrc) (mk : MReg)
  | vsar (t : ETy) (vd : VReg) (vs1 vs2 : VSrc) (mk : MReg)
  | vadds (t : ETy) (vd : VReg) (vs1 vs2 : VSrc) (mk : MReg)
  | vsubs (t : ETy) (vd : VReg) (vs1 vs2 : VSrc) (mk : MReg)
  -- vector compares, masks, select (R108 to R110)
  | vcmp (c : Cond) (t : ETy) (md me : MReg) (vs1 vs2 : VSrc) (sel : BitVec 2)
  | vfcmp (c : VfCond) (t : ETy) (md me : MReg) (vs1 vs2 : VSrc) (sel : BitVec 2)
  | mlog (op : LogOp) (md me ma mb : MReg)
  | mcnt (xd : XReg) (ma : MReg)
  | mfirst (xd : XReg) (ma : MReg)
  | vsel (t : ETy) (vd : VReg) (vs1 vs2 : VSrc) (mk : MReg)
  -- conversions (R111 to R114)
  | vcvt (d s : ETy) (rnd : Rnd) (vd : VReg) (vs1 : VSrc) (mk : MReg) (part : BitVec 4)
  | vcvtu (d s : ETy) (rnd : Rnd) (vd : VReg) (vs1 : VSrc) (mk : MReg) (part : BitVec 4)
  | vcvtq (d s : ETy) (rnd : Rnd) (vd : VReg) (vs1 vs2 : VSrc) (sl : SReg) (mk : MReg) (part : BitVec 4)
  | vunpk (vd : VReg) (vs1 : VSrc) (mk : MReg) (part : BitVec 3)
  -- permutes (R115 to R117)
  | vbcast (t : ETy) (vd : VReg) (vs1 : VSrc) (mk : MReg) (idx : BitVec 16)
  | vbcastScalar (t : ETy) (vd : VReg) (xs : XReg) (mk : MReg)
  | vins (t : ETy) (vd : VReg) (xs : XReg) (idx : BitVec 16)
  | vext (t : ETy) (xd : XReg) (vs1 : VSrc) (idx : BitVec 16)
  | vperm (t : ETy) (vd : VReg) (vs1 vs2 : VSrc) (mk : MReg)
  | vperm2 (t : ETy) (vd : VReg) (vs1 vs2 vs3 : VSrc) (mk : MReg)
  | vzip (hi : Bool) (t : ETy) (vd : VReg) (vs1 vs2 : VSrc) (mk : MReg)
  | vunzip (od : Bool) (t : ETy) (vd : VReg) (vs1 vs2 : VSrc) (mk : MReg)
  | vcomp (t : ETy) (vd : VReg) (vs1 : VSrc) (mk : MReg)
  | vexpd (t : ETy) (vd : VReg) (vs1 : VSrc) (mk : MReg)
  | vrotm (vd : VReg) (vs1 vs2 : VSrc) (mk : MReg) (sh : BitVec 8)
  | vrotmScalar (vd : VReg) (vs1 vs2 : VSrc) (mk : MReg) (xs : XReg)
  -- reductions, sort and merge, optimiser, random (R118 to R128)
  | vrsum (t : ETy) (vd : VReg) (vs1 : VSrc) (mk : MReg)
  | vrmax (t : ETy) (vd : VReg) (vs1 : VSrc) (mk : MReg)
  | vrmin (t : ETy) (vd : VReg) (vs1 : VSrc) (mk : MReg)
  | vradd (t : ETy) (vd : VReg) (vs1 : VSrc) (mk : MReg)
  | vsort (vd vs1 : VReg)
  | vmrg (hi : Bool) (vd vs1 vs2 : VReg)
  | vmsplit (vd : VReg) (vs1 vs2 : VSrc) (mk : MReg)
  | vadamw (t : ETy) (rnd : Rnd) (sb : SReg) (xh : XReg) (h g16 : Bool)
  | vsgdm (t : ETy) (rnd : Rnd) (sb : SReg) (xh : XReg) (h g16 : Bool)
  | vrand (t : ETy) (vd : VReg) (mk : MReg)
  -- matrix array (R137)
  | mloadw (st : BitVec 2) (set : BitVec 4) (dw : BitVec 3) (sp : Bool) (xm : XReg)
  | mswap (st : BitVec 2)
  | mmul (st at_ : BitVec 2) (set : BitVec 4) (da : BitVec 3) (rev acc : Bool) (row0 : BitVec 7)
  | mmulg (st at_ : BitVec 2) (set : BitVec 4) (da : BitVec 3) (rev acc : Bool) (row0 : BitVec 7) (vi : VSrc)
  | mdrain (st at_ : BitVec 2) (dO : BitVec 3) (row0 : BitVec 7) (rnd : Rnd) (clr q : Bool) (sl : SReg)
  | mdrainV (st at_ : BitVec 2) (vd : VReg) (row0 : BitVec 7) (rnd : Rnd) (fmt : ETy) (clr : Bool)
  | mzero (st at_ : BitVec 2)
  | mcbook (st : BitVec 2) (xs : XReg)
  | mdset (dn : BitVec 3) (xlo xhi : XReg)
  | mfence
  | mwait (st : BitVec 2)
  | mstat (st : BitVec 2) (xd : XReg) (sel : BitVec 2) (clr : Bool)
  -- spline mode (R162)
  | mknot (st : BitVec 2) (xs : XReg)
  | mknotC (st : BitVec 2) (xs : XReg)
  | mspl (st at_ : BitVec 2) (da : BitVec 3) (acc : Bool) (row0 : BitVec 7)
  | msplb (st at_ : BitVec 2) (dg da : BitVec 3) (acc : Bool) (row0 : BitVec 7)
  | msplg (st : BitVec 2) (dg da : BitVec 3)
  | mrefine (st : BitVec 2)
  | mgdrain (st : BitVec 2) (src : GSrc) (xs : XReg)
  | mgzero (st : BitVec 2)
  -- scratchpad rows, atomics, messages, streams (R178)
  | ldrow (vd : VReg) (base : XReg) (off : BitVec 32)
  | strow (vs : VSrc) (base : XReg) (off : BitVec 32) (mk : MReg)
  | ldrowr (vd : VReg) (xc xa : XReg) (acq : Bool)
  | strowr (vs : VSrc) (xc xa : XReg) (mk : MReg) (rel : Bool)
  | amo (op : AmoOp) (w64 : Bool) (vd : VReg) (xa : XReg) (va vc : VReg) (mk : MReg) (nr : Bool)
  | amor (op : AmoOp) (w64 : Bool) (vd : VReg) (xc xa : XReg) (va vc : VReg) (mk : MReg) (nr acq : Bool)
  | fence (scope : Scope)
  | sbind (sn : SReg) (base : XReg) (off : BitVec 32)
  | sunbind (sn : SReg)
  | sadv (sn : SReg) (rs : XReg) (imm : BitVec 32)
  | swait (sn : SReg) (rs : XReg) (imm : BitVec 32)
  | sstat (xd : XReg) (sn : SReg) (sel : BitVec 2)
  -- global memory (R212, R224, R227)
  | probe (rd rs : XReg) (imm : BitVec 32)
  | pfill (base : XReg) (off : BitVec 32)
  | pwb (base : XReg) (off : BitVec 32)
  | pinv (base : XReg) (off : BitVec 32)
  | pinvAll
  | pinvCfg (xs : XReg)
  | phase (g : BitVec 8)
  | amog (op : AmogOp) (w64 : Bool) (xs base : XReg) (off : BitVec 32)
  -- copy, handles and stash (R234)
  | xchain (rd xh : XReg) (ch : BitVec 6)
  | xgath (h : BitVec 6) (va nm1 : VReg)
  | xscat (h : BitVec 6) (va nm1 : VReg)
  | bwait (rd : XReg) (h : BitVec 6) (free : Bool)
  | bsetCfg (h : BitVec 6) (xs : XReg)
  | bsetFull (h : BitVec 6)
  | bsetFree (h : BitVec 6)
  | stashc (h : BitVec 6) (base : XReg) (off : BitVec 32) (mx8 dead bf16 : Bool)
  | stashs (h : BitVec 6) (base : XReg) (off : BitVec 32) (dead : Bool)
  | stashd (h : BitVec 6) (base : XReg) (off : BitVec 32)
  | stashp (h : BitVec 6) (base : XReg) (off : BitVec 32)
  | stashf (h : BitVec 6) (base : XReg) (off : BitVec 32)
  | stashq (rd base : XReg) (off : BitVec 32)
  -- tasks, jobs, launch queues, Clasp (R256, R273 to R285)
  | tarm (rd base : XReg) (off : BitVec 32) (own : Bool) (die : BitVec 3)
  | tdec (rs : XReg) (early : Bool) (n : BitVec 16)
  | tdone
  | jnext (imm : BitVec 32)
  | jprog (rs : XReg) (imm : BitVec 32)
  | early
  | waitvis
  | gbar (g : BitVec 8)
  | abort (rs : XReg)
  | abortSelf
  | abchk
  | qpush (rd xq xa : XReg)
  | mbpost (rd xt : XReg) (stage : BitVec 3) (q : ClaspQ)
  | verget (rd xt : XReg) (stage : BitVec 3)
  | verputRel (rd xs : XReg) (stage : BitVec 3)
  | verputPub (rd xs : XReg) (stage : BitVec 3)
  | verputAlloc (rd : XReg) (stage : BitVec 3)
  -- channels, collectives, routing, torus (R290, R352)
  | chsend (s : Bool) (xt xa xl : XReg) (ch : BitVec 8)
  | chwin (rs : XReg) (ch : BitVec 8) (n : BitVec 24)
  | chstatSnd (rd : XReg) (ch : BitVec 8)
  | chstatRcv (rd : XReg) (ch : BitVec 8)
  | chstatErr (rd : XReg) (ch : BitVec 8) (clr : Bool)
  | coll (rd base : XReg) (off : BitVec 32)
  | cwait (rd xc : XReg)
  | route (base : XReg) (off : BitVec 32)
  | rstat (rd : XReg) (sel : BitVec 10)
  -- search (R316)
  | sginst (rd base : XReg) (off : BitVec 32)
  | sginstRm (rd xs : XReg)
  | sqsub (rd base : XReg) (off : BitVec 32)
  | sqwait (rd : XReg) (qh : BitVec 4)
  | sqwaitT (rd : XReg) (qh : BitVec 4)
  | sqcan (rd : XReg) (qh : BitVec 4)
  -- system (R344) and the platform (R348 to R361)
  | trap (n : BitVec 16)
  | brk (n : BitVec 16)
  | eret
  | eretDisc
  | ctxsave (base : XReg) (off : BitVec 32) (disc dl : Bool)
  | ctxload (base : XReg) (off : BitVec 32)
  | dload (base : XReg) (off : BitVec 32)
  | tlbinv (xs : XReg)
  | tlbinvAll
  | stop (rd xs : XReg)
  -- events of the core, its engines and the dispatcher
  | bundleIssue (core : CoreNo)
  | codeBlockArrival (k : CtxKey) (victim : BitVec 5)
  | contextWake (k : CtxKey)
  | engineFaultDelivery (k : CtxKey)
  | wfeTimeout (k : CtxKey)
  | remoteSevArrival (src dst : CoreNo)
  | matrixOpStart (core : CoreNo) (st : BitVec 2)
  | matrixOpComplete (core : CoreNo) (st : BitVec 2)
  | remoteMessageArrival (src dst : CoreNo)
  | remoteReplyArrival (src : CoreNo) (idx : Nat)
  | streamFill (k : CtxKey) (sn : SReg) (slot : Nat)
  | streamDrain (k : CtxKey) (sn : SReg)
  | optimiserOutputWrite (k : CtxKey) (sn : SReg)
  | probeFillComplete (k : CtxKey) (slot : BitVec 11)
  | releaseComplete (k : CtxKey)
  | copyRecord (die : BitVec 3) (ch : BitVec 6)
  | copyRecordComplete (die : BitVec 3) (ch : BitVec 6)
  | xgathComplete (core : CoreNo) (h : BitVec 6)
  | xscatComplete (core : CoreNo) (h : BitVec 6)
  | stashCommandReceipt (k : CtxKey)
  | stashCommandComplete (idx place : Nat)
  | taskArmRequest (die : BitVec 3) (idx : Nat)
  | taskDecrementArrival (die : BitVec 3) (idx : Nat)
  | chunkDeal (die : BitVec 3)
  | shareStart (k : CtxKey)
  | arbiterPick (die : BitVec 3)
  | preemptionPoint (die : BitVec 3)
  | engineReplyArrival (k : CtxKey) (idx : Nat)
  -- events: the other units, the host, the links and the platform
  -- global memory (R212, R224, R227)
  | channelFailure (stack : BitVec 3) (pc : BitVec 9)
  | rebuildBlockMove (stack : BitVec 3)
  -- tasks, jobs, launch queues, Clasp (R256, R273 to R285)
  | peerPacketArrival (idx : Nat)
  | budgetOverrun (k : CtxKey)
  | stopTokenTrap (k : CtxKey)
  | hostWpWrite (q : BitVec 6) (wp : BitVec 32)
  | launchNop (q : BitVec 7)
  | launchArm (q : BitVec 7)
  | launchTdec (q : BitVec 7)
  | launchPost (q : BitVec 7)
  | launchAbort (q : BitVec 7)
  | qctlGo (q : BitVec 7)
  | qctlReset (q : BitVec 7)
  | qctlHalt (q : BitVec 7)
  | claspEvaluate (stage : BitVec 3)
  | claspConfigWrite (stage : BitVec 3) (word : BitVec 5) (val : Word)
  | groupBitmapWrite (g : BitVec 8) (word : BitVec 6) (val : Word)
  | groupCtxmaskWrite (g : BitVec 8) (val : Word)
  -- channels, collectives, routing, torus (R290, R352)
  | chsendSourceRead (ch : BitVec 8)
  | windowGrantArrival (ch : BitVec 8)
  | channelReceipt (ch : BitVec 8)
  | channelRecordWrite (ch : BitVec 8) (word : BitVec 2) (val : Word)
  | collectiveStart (ring : BitVec 2)
  | collectiveComplete (ring : BitVec 2)
  | routeReservation (k : CtxKey)
  | routeReservationAnswer (k : CtxKey)
  | routeEntryCommit (k : CtxKey) (idx : Nat)
  | routeDecrement (k : CtxKey) (d : BitVec 4)
  | routeComplete (k : CtxKey)
  | expertTableWrite (lx : BitVec 8) (word : Bool) (val : Word)
  | dimsWrite (val : Word)
  | coordWrite (val : Word)
  | portenWrite (val : Word)
  | ringEntryWrite (ring word : BitVec 2) (val : Word)
  | portTrained (port : BitVec 3)
  | portTrainingTimeout (port : BitVec 3)
  | portFailure (port : BitVec 3)
  -- search (R316)
  | graphInstall (k : CtxKey)
  | graphRemoveReceipt (k : CtxKey)
  | graphEntryFreed (g : BitVec 6)
  | queryAdmit (stack : BitVec 3)
  | queryRound (k : CtxKey) (qh : BitVec 4)
  | queryVisible (k : CtxKey)
  -- system (R344) and the platform (R348 to R361)
  | stopArrival (idx : Nat)
  | governorUpdate (duty : BitVec 7)
  | stkrateWrite (val : Word)
  | stackRetrainDone (stack : BitVec 3)
  | saveDeadline (stack : BitVec 3)
  | ptrootWrite (val : Word)
  | registerWrite (off : BitVec 24) (val : Word)
  | bar2Read (va : Word) (len : Nat)
  | bar2Write (va : Word) (data : List Byte)
  | functionReady (bit : BitVec 6) (up : Bool)
  | dieBringup (die : BitVec 3)
  | dieReset (die : BitVec 3)
  | linkPortReset (port : BitVec 3)
  | moduleReset
  | powerInput
  | norlysControlWrite (c : NorlysCtl) (val : Word)
  | norlysControlRelease (c : NorlysCtl)
  | measurementExtend (slot : BitVec 4) (digest : BitVec 384)
  | getVersion
  | getCapabilities
  | negotiateAlgorithms
  | getDigests
  | getCertificate
  | challenge
  | getMeasurements
  | claspRequestArrival (idx : Nat)
  | abortMessageArrival (die : BitVec 3) (idx : Nat)
  | linkFlitLoss (ch : BitVec 8)
  | powerInputLoss
  | systemDeadMark (addr : Word) (len : Nat)
  deriving DecidableEq, Repr

end Sys2Proof
end

