-- ==== Sys2Proof/WellFormed.lean ====
section
/-! DEFINITION. Which instruction terms the encodings of the spec admit: the codes each instruction accepts,
beyond what the types of its operands say already. -/

namespace Sys2Proof

/-- Types whose elements the vector floating-point arithmetic takes (R105, R106, R108). -/
def ETy.isVF : ETy → Bool
  | .f32 | .bf16 | .f16 => true
  | _ => false

/-- The integer types (R61, R107). -/
def ETy.isInt : ETy → Bool
  | .i8 | .i16 | .i32 | .i64 => true
  | _ => false

/-- The floating-point formats of R57. -/
def ETy.isFloat : ETy → Bool
  | .f32 | .bf16 | .f16 | .e4m3 | .e5m2 | .e3m2 | .e2m3 | .e2m1 => true
  | _ => false

/-- The width in bits (R6). -/
def ETy.width : ETy → Nat
  | .f32 => 32 | .bf16 => 16 | .f16 => 16 | .e4m3 => 8 | .e5m2 => 8 | .e3m2 => 6 | .e2m3 => 6 | .e2m1 => 4
  | .i8 => 8 | .i16 => 16 | .i32 => 32 | .i64 => 64 | .lq2 => 16

/-- Types of width 8, 16, 32 or 64: codes 0 to 4 and 8 to 11 (R110, R115). -/
def ETy.isByte : ETy → Bool
  | .f32 | .bf16 | .f16 | .e4m3 | .e5m2 | .i8 | .i16 | .i32 | .i64 => true
  | _ => false

/-- The narrow formats of VCVTQ and MDRAIN.q (R113, R147). -/
def ETy.isNarrow : ETy → Bool
  | .e4m3 | .e5m2 | .e3m2 | .e2m3 | .e2m1 => true
  | _ => false

/-- The number of elements of a 2,048-bit register (R101). -/
def ETy.count (t : ETy) : Nat := 2048 / t.width

/-- The SEL values that a mask-writing compare accepts (R108). -/
def ETy.selOk (t : ETy) (sel : BitVec 2) : Bool :=
  sel.toNat < (if t.width = 8 then 4 else if t.width = 16 then 2 else 1)

/-- The part range of a conversion (R111). -/
def partOk (d s : ETy) (part : Nat) : Bool :=
  if d.width = s.width then part == 0
  else (part + 1) * min d.width s.width ≤ max d.width s.width

/-- The pairs of VCVT and VCVTU (R112); `signed` is VCVT. -/
def cvtPairOk (signed : Bool) (d s : ETy) (rnd : Rnd) : Bool :=
  if d.isFloat && s.isFloat then signed && d != s && !(d.width ≤ 6 && s.width ≤ 6)
  else if d.isInt && s.isInt then d != s && rnd == .rne
  else (d.isFloat && s.isInt) || (d.isInt && s.isFloat)

/-- The system register numbers of R94. -/
def srNumbers : List Nat :=
  [0x000, 0x001, 0x002, 0x003, 0x004, 0x005, 0x006, 0x007, 0x010, 0x011, 0x012, 0x013,
   0x020, 0x021, 0x022, 0x023, 0x024, 0x030]

/-- The SEL values of RSTAT (R310). -/
def rstatSelOk (sel : Nat) : Bool :=
  sel ≤ 3 || (0x10 ≤ sel && sel ≤ 0x1F) || (0x100 ≤ sel && sel ≤ 0x2FF)

/-- A register field of a pair names an even register (R120). -/
def evenReg (r : VReg) : Bool := r.toNat % 2 == 0

/-- A source that cannot be peeked (R178). -/
def VSrc.noPeek : VSrc → Bool
  | .v _ => true
  | .head _ p => !p

/-- The instruction holds only codes and fields that its encoding admits (R37 to R39 and the family tables). -/
def Instr.wf : Instr → Bool
  | .plog op _ _ _ pb => !(op == .mov || op == .not) || pb == 0
  | .srget _ sr | .srset sr _ => srNumbers.contains sr.toNat
  | .vfadd t _ _ _ _ | .vfsub t _ _ _ _ | .vfmul t _ _ _ _ | .vfmin t _ _ _ _ | .vfmax t _ _ _ _
  | .vfdiv t _ _ _ _ => t.isVF
  | .vfma t _ _ _ _ _ | .vfms t _ _ _ _ _ | .vfnma t _ _ _ _ _ => t.isVF
  | .vfsqrt t _ _ _ | .vfrcp t _ _ _ | .vfrsq t _ _ _ | .vfexp2 t _ _ _ | .vflog2 t _ _ _
  | .vfabs t _ _ _ | .vfneg t _ _ _ | .vfclass t _ _ _ => t.isVF
  | .vadd t _ _ _ _ | .vsub t _ _ _ _ | .vmul t _ _ _ _ | .vmulh t _ _ _ _ | .vmin t _ _ _ _
  | .vminu t _ _ _ _ | .vmax t _ _ _ _ | .vmaxu t _ _ _ _ | .vand t _ _ _ _ | .vor t _ _ _ _
  | .vxor t _ _ _ _ | .vandn t _ _ _ _ | .vshl t _ _ _ _ | .vshr t _ _ _ _ | .vsar t _ _ _ _
  | .vadds t _ _ _ _ | .vsubs t _ _ _ _ => t.isInt
  | .vabs t _ _ _ => t.isInt
  | .vcmp _ t _ _ _ _ s => t.isInt && t.selOk s
  | .vfcmp _ t _ _ _ _ s => t.isVF && t.selOk s
  | .mlog op _ _ _ mb => !(op == .mov || op == .not) || mb == 0
  | .vsel t _ _ _ _ => t.isByte
  | .vcvt d s rnd _ _ _ part => cvtPairOk true d s rnd && partOk d s part.toNat
  | .vcvtu d s rnd _ _ _ part => cvtPairOk false d s rnd && partOk d s part.toNat
  | .vcvtq d s _ _ _ _ _ _ part => s.isVF && d.isNarrow && partOk d s part.toNat
  | .vbcast t _ _ _ idx => t.isByte && decide (idx.toNat < t.count)
  | .vins t _ _ idx => t.isByte && decide (idx.toNat < t.count)
  | .vext t _ _ idx => t.isByte && decide (idx.toNat < t.count)
  | .vbcastScalar t _ _ _ => t.isByte
  | .vperm t _ _ _ _ => t.isByte
  | .vperm2 t _ _ _ _ _ => t.isByte
  | .vzip _ t _ _ _ _ | .vunzip _ t _ _ _ _ => t.isByte
  | .vcomp t _ _ _ | .vexpd t _ _ _ => t.isByte
  | .vrsum t _ _ _ => t.isVF
  | .vrmax t _ _ _ | .vrmin t _ _ _ => t.isVF || t.isInt
  | .vradd t _ _ _ => t.isInt
  | .vsort vd vs1 => evenReg vd && evenReg vs1
  | .vmrg _ vd vs1 vs2 => evenReg vd && evenReg vs1 && evenReg vs2
  | .vadamw t rnd sb _ h g16 =>
      (t == .f32 || t == .bf16) && (rnd == .rne || rnd == .sr) && decide (sb.toNat ≤ 9) && (!h || t == .bf16 || g16)
  | .vsgdm t rnd sb _ h g16 =>
      (t == .f32 || t == .bf16) && (rnd == .rne || rnd == .sr) && decide (sb.toNat ≤ 11) && (!h || t == .bf16 || g16)
  | .vrand t _ _ => t == .i32 || t == .i64 || t == .f32 || t == .bf16
  | .mloadw _ _ _ sp xm => sp || xm == 0
  | .mdrain _ _ _ _ _ _ q sl => q || sl == 0
  | .mstat _ _ s clr => !(s == 3 && clr)
  | .strow vs _ _ _ => vs.noPeek
  | .strowr vs _ _ _ _ => vs.noPeek
  | .amo op w64 vd _ _ vc _ nr => !(op == .fadd && w64) && (op == .cas || vc == 0) && (!nr || vd == 0)
  | .amor op w64 vd _ _ _ vc _ nr _ => !(op == .fadd && w64) && (op == .cas || vc == 0) && (!nr || vd == 0)
  | .sstat _ _ s => decide (s.toNat ≤ 2)
  | .amog op w64 _ _ _ => !(op == .fadd && w64)
  | .stashc _ _ _ mx8 _ bf16 => mx8 || !bf16
  | .tarm _ _ _ own die => !own || die == 0
  | .rstat _ s => rstatSelOk s.toNat
  | .channelFailure _ pc => decide (pc.toNat < 384)
  | .claspConfigWrite _ word _ => decide (word.toNat < 24)
  | _ => true

end Sys2Proof
end

