-- ==== Sys2Proof/Decode.lean ====
section
/-! DEFINITION. The decoder of a slot word and of a bundle (R31 to R39, R47 to R51 and the family encodings), and
after it the encoder. Field positions are those of R32 and R35. -/

namespace Sys2Proof

/-- Bits [lo + n − 1 : lo] of a word. -/
def fld (n : Nat) (w lo : Nat) : BitVec n := BitVec.ofNat n (w / 2 ^ lo)
/-- Bit lo of a word. -/
def bit1 (w lo : Nat) : Bool := w / 2 ^ lo % 2 == 1
/-- Bits [hi : lo] are zero, as a reserved field must be (R39). -/
def zeroF (w hi lo : Nat) : Bool := w / 2 ^ lo % 2 ^ (hi + 1 - lo) == 0

/-- An instruction when its reserved fields hold what the encoding asks. -/
def guardI (ok : Bool) (i : Instr) : Option Instr := if ok then some i else none

/-- A type code (R37). -/
def ETy.ofCode? : Nat → Option ETy
  | 0 => some .f32 | 1 => some .bf16 | 2 => some .f16 | 3 => some .e4m3 | 4 => some .e5m2 | 5 => some .e3m2
  | 6 => some .e2m3 | 7 => some .e2m1 | 8 => some .i8 | 9 => some .i16 | 10 => some .i32 | 11 => some .i64
  | 12 => some .lq2 | _ => none
/-- The code of a type (R37). -/
def ETy.code : ETy → Nat
  | .f32 => 0 | .bf16 => 1 | .f16 => 2 | .e4m3 => 3 | .e5m2 => 4 | .e3m2 => 5 | .e2m3 => 6 | .e2m1 => 7
  | .i8 => 8 | .i16 => 9 | .i32 => 10 | .i64 => 11 | .lq2 => 12
/-- A rounding code (R38). -/
def Rnd.ofCode? : Nat → Option Rnd
  | 0 => some .rne | 1 => some .rz | 2 => some .ru | 3 => some .rd | 4 => some .sr | _ => none
/-- The code of a rounding mode (R38). -/
def Rnd.code : Rnd → Nat
  | .rne => 0 | .rz => 1 | .ru => 2 | .rd => 3 | .sr => 4
/-- A condition code (R85). -/
def Cond.ofCode? : Nat → Option Cond
  | 0 => some .eq | 1 => some .ne | 2 => some .lt | 3 => some .le | 4 => some .gt | 5 => some .ge | 6 => some .ltu
  | 7 => some .leu | 8 => some .gtu | 9 => some .geu | 10 => some .tst | 11 => some .ntst | _ => none
/-- The code of a condition (R85). -/
def Cond.code : Cond → Nat
  | .eq => 0 | .ne => 1 | .lt => 2 | .le => 3 | .gt => 4 | .ge => 5 | .ltu => 6 | .leu => 7 | .gtu => 8 | .geu => 9
  | .tst => 10 | .ntst => 11
/-- A logic operation code (R86). -/
def LogOp.ofCode? : Nat → Option LogOp
  | 0 => some .and | 1 => some .or | 2 => some .xor | 3 => some .andn | 4 => some .orn | 5 => some .nand
  | 6 => some .nor | 7 => some .xnor | 8 => some .mov | 9 => some .not | _ => none
/-- The code of a logic operation (R86). -/
def LogOp.code : LogOp → Nat
  | .and => 0 | .or => 1 | .xor => 2 | .andn => 3 | .orn => 4 | .nand => 5 | .nor => 6 | .xnor => 7 | .mov => 8
  | .not => 9
/-- A floating-point condition code (R108). -/
def VfCond.ofCode? : Nat → Option VfCond
  | 0 => some .eq | 1 => some .ne | 2 => some .lt | 3 => some .le | 4 => some .gt | 5 => some .ge | 6 => some .un
  | 7 => some .ord | _ => none
/-- The code of a floating-point condition (R108). -/
def VfCond.code : VfCond → Nat
  | .eq => 0 | .ne => 1 | .lt => 2 | .le => 3 | .gt => 4 | .ge => 5 | .un => 6 | .ord => 7
/-- An atomic operation code (R181). -/
def AmoOp.ofCode? : Nat → Option AmoOp
  | 0 => some .add | 1 => some .fadd | 2 => some .min | 3 => some .max | 4 => some .minu | 5 => some .maxu
  | 6 => some .and | 7 => some .or | 8 => some .xor | 9 => some .swap | 10 => some .cas | _ => none
/-- The code of an atomic operation (R181). -/
def AmoOp.code : AmoOp → Nat
  | .add => 0 | .fadd => 1 | .min => 2 | .max => 3 | .minu => 4 | .maxu => 5 | .and => 6 | .or => 7 | .xor => 8
  | .swap => 9 | .cas => 10
/-- A deferred atomic code (R227). -/
def AmogOp.ofCode? : Nat → Option AmogOp
  | 0 => some .add | 1 => some .fadd | 2 => some .min | 3 => some .max | 4 => some .or | _ => none
/-- The code of a deferred atomic (R227). -/
def AmogOp.code : AmogOp → Nat
  | .add => 0 | .fadd => 1 | .min => 2 | .max => 3 | .or => 4
/-- A queue code of MBPOST (R256). -/
def ClaspQ.ofCode? : Nat → Option ClaspQ
  | 0 => some .f | 1 => some .b | 2 => some .w | 3 => some .u | 4 => some .e | _ => none
/-- The code of a Clasp queue (R256). -/
def ClaspQ.code : ClaspQ → Nat
  | .f => 0 | .b => 1 | .w => 2 | .u => 3 | .e => 4
/-- A scope code of FENCE (R178). -/
def Scope.ofCode? : Nat → Option Scope
  | 0 => some .cl | 1 => some .die | 2 => some .mod | _ => none
/-- The code of a scope (R178). -/
def Scope.code : Scope → Nat
  | .cl => 0 | .die => 1 | .mod => 2
/-- A source code of MGDRAIN (R162). -/
def GSrc.ofCode : Nat → GSrc
  | 0 => .g | 1 => .ca | 2 => .cs | _ => .kn
/-- The code of an MGDRAIN source (R162). -/
def GSrc.code : GSrc → Nat
  | .g => 0 | .ca => 1 | .cs => 2 | .kn => 3

/-- A vector source field at lo with its peek bit (R36, R103). -/
def vsrcF (w lo : Nat) (peek : Bool) : Option VSrc :=
  let n := w / 2 ^ lo % 64
  if n < 32 then (if peek then none else some (.v (BitVec.ofNat 5 n)))
  else if n < 48 then some (.head (BitVec.ofNat 4 (n - 32)) peek)
  else none
/-- A 6-bit field that names v0 to v31 (R36). -/
def vregF (w lo : Nat) : Option VReg :=
  let n := w / 2 ^ lo % 64
  if n < 32 then some (BitVec.ofNat 5 n) else none
/-- A 6-bit field that names one of sixteen registers (R36). -/
def f16F (w lo : Nat) : Option (BitVec 4) :=
  let n := w / 2 ^ lo % 64
  if n < 16 then some (BitVec.ofNat 4 n) else none

/-- RRR with three scalars and mod reserved (R81). -/
def decRRR (c : XReg → XReg → XReg → Instr) (w : Nat) : Option Instr :=
  guardI (zeroF w 29 0) (c (fld 6 w 42) (fld 6 w 36) (fld 6 w 30))
/-- A bit-field instruction without POS and LENM1 (R83). -/
def decRR (c : XReg → XReg → Instr) (w : Nat) : Option Instr :=
  guardI (zeroF w 35 0) (c (fld 6 w 42) (fld 6 w 36))
/-- RI with rd, rs and imm32 (R84). -/
def decRI (c : XReg → XReg → BitVec 32 → Instr) (w : Nat) : Option Instr :=
  guardI (zeroF w 35 32) (c (fld 6 w 42) (fld 6 w 36) (fld 32 w 0))
/-- A shift by an immediate (R84). -/
def decRIsh (c : XReg → XReg → BitVec 6 → Instr) (w : Nat) : Option Instr :=
  guardI (zeroF w 35 32 && zeroF w 31 6) (c (fld 6 w 42) (fld 6 w 36) (fld 6 w 0))

/-- The A and B slots (R47). -/
def decScalar (opc w : Nat) : Option Instr :=
  match opc with
  | 0x001 => decRRR .add w
  | 0x002 => decRRR .sub w
  | 0x003 => decRRR .and w
  | 0x004 => decRRR .or w
  | 0x005 => decRRR .xor w
  | 0x006 => decRRR .andn w
  | 0x007 => decRRR .shl w
  | 0x008 => decRRR .shr w
  | 0x009 => decRRR .sar w
  | 0x00A => decRRR .rol w
  | 0x00B => decRRR .mul w
  | 0x00C => decRRR .mulh w
  | 0x00D => decRRR .mulhu w
  | 0x00E => decRRR .div w
  | 0x00F => decRRR .divu w
  | 0x010 => decRRR .rem w
  | 0x011 => decRRR .remu w
  | 0x012 => decRRR .min w
  | 0x013 => decRRR .max w
  | 0x014 => decRRR .minu w
  | 0x015 => decRRR .maxu w
  | 0x020 => decRR .clz w
  | 0x021 => decRR .ctz w
  | 0x022 => decRR .popc w
  | 0x023 => decRR .bswap w
  | 0x024 => guardI (zeroF w 35 18 && zeroF w 11 6) (.extr (fld 6 w 42) (fld 6 w 36) (fld 6 w 12) (fld 6 w 0))
  | 0x025 => guardI (zeroF w 35 18 && zeroF w 11 6) (.ins (fld 6 w 42) (fld 6 w 36) (fld 6 w 12) (fld 6 w 0))
  | 0x026 => guardI (zeroF w 35 6) (.sext (fld 6 w 42) (fld 6 w 36) (fld 6 w 0))
  | 0x027 => guardI (zeroF w 35 6) (.zext (fld 6 w 42) (fld 6 w 36) (fld 6 w 0))
  | 0x040 => decRI .addi w
  | 0x041 => decRI .andi w
  | 0x042 => decRI .ori w
  | 0x043 => decRI .xori w
  | 0x044 => decRIsh .shli w
  | 0x045 => decRIsh .shri w
  | 0x046 => decRIsh .sari w
  | 0x047 => guardI (zeroF w 41 32) (.li (fld 6 w 42) (fld 32 w 0))
  | 0x048 => decRI .lih w
  | 0x080 => (Cond.ofCode? (w / 2 ^ 20 % 16)).bind fun c =>
      guardI (zeroF w 19 0) (.cmp c (fld 6 w 42) (fld 6 w 24) (fld 6 w 36) (fld 6 w 30))
  | 0x081 => (Cond.ofCode? (w / 2 ^ 26 % 16)).bind fun c =>
      some (.cmpi c (fld 6 w 42) (fld 6 w 30) (fld 6 w 36) (fld 26 w 0))
  | 0x082 => (LogOp.ofCode? (w / 2 ^ 20 % 16)).bind fun c =>
      guardI (zeroF w 19 0) (.plog c (fld 6 w 42) (fld 6 w 24) (fld 6 w 36) (fld 6 w 30))
  | 0x083 => guardI (zeroF w 23 0) (.sel (fld 6 w 42) (fld 6 w 24) (fld 6 w 36) (fld 6 w 30))
  | 0x0A0 => guardI (zeroF w 47 32) (.br (fld 32 w 0))
  | 0x0A1 => guardI (zeroF w 47 42 && zeroF w 35 32) (.brx (fld 6 w 36) (fld 32 w 0))
  | 0x0A2 => guardI (zeroF w 41 32) (.call (fld 6 w 42) (fld 32 w 0))
  | 0x0A3 => guardI (zeroF w 47 42 && zeroF w 35 0) (.ret (fld 6 w 36))
  | 0x0A4 => guardI (zeroF w 41 32) (.loop (fld 6 w 42) (fld 32 w 0))
  | 0x0C0 => decRI .lds w
  | 0x0C1 => decRI .sts w
  | 0x0D0 => guardI (zeroF w 41 12) (.srget (fld 6 w 42) (fld 12 w 0))
  | 0x0D1 => guardI (zeroF w 47 42 && zeroF w 35 12) (.srset (fld 12 w 0) (fld 6 w 36))
  | 0x0D2 => guardI (zeroF w 41 32) (.wfe (fld 6 w 42) (fld 32 w 0))
  | 0x0D3 => if bit1 w 32 then guardI (zeroF w 47 42 && zeroF w 35 33 && zeroF w 31 4) (.sevRemote (fld 6 w 36) (fld 4 w 0))
      else guardI (zeroF w 47 33 && zeroF w 31 4) (.sev (fld 4 w 0))
  | _ => none

/-- VR with two sources, rnd and mod zero (R105, R107). -/
def decV2 (c : ETy → VReg → VSrc → VSrc → MReg → Instr) (w : Nat) : Option Instr := do
  let t ← ETy.ofCode? (w / 2 ^ 16 % 16)
  let vd ← vregF w 42
  let a ← vsrcF w 36 (bit1 w 15)
  let b ← vsrcF w 30 (bit1 w 14)
  guardI (zeroF w 29 24 && zeroF w 13 0) (c t vd a b (fld 4 w 20))
/-- VR with three sources. -/
def decV3 (c : ETy → VReg → VSrc → VSrc → VSrc → MReg → Instr) (w : Nat) : Option Instr := do
  let t ← ETy.ofCode? (w / 2 ^ 16 % 16)
  let vd ← vregF w 42
  let a ← vsrcF w 36 (bit1 w 15)
  let b ← vsrcF w 30 (bit1 w 14)
  let d ← vsrcF w 24 (bit1 w 13)
  guardI (zeroF w 12 0) (c t vd a b d (fld 4 w 20))
/-- VR with one source. -/
def decV1 (c : ETy → VReg → VSrc → MReg → Instr) (w : Nat) : Option Instr := do
  let t ← ETy.ofCode? (w / 2 ^ 16 % 16)
  let vd ← vregF w 42
  let a ← vsrcF w 36 (bit1 w 15)
  guardI (zeroF w 35 24 && zeroF w 14 0) (c t vd a (fld 4 w 20))
/-- VR with two sources and mod [0] as a variant (R115). -/
def decV2h (c : Bool → ETy → VReg → VSrc → VSrc → MReg → Instr) (w : Nat) : Option Instr := do
  let t ← ETy.ofCode? (w / 2 ^ 16 % 16)
  let vd ← vregF w 42
  let a ← vsrcF w 36 (bit1 w 15)
  let b ← vsrcF w 30 (bit1 w 14)
  guardI (zeroF w 29 24 && zeroF w 13 1) (c (bit1 w 0) t vd a b (fld 4 w 20))
/-- VCVT and VCVTU: mod [3:0] the source type, mod [7:4] the part (R111). -/
def decCvt (c : ETy → ETy → Rnd → VReg → VSrc → MReg → BitVec 4 → Instr) (w : Nat) : Option Instr := do
  let d ← ETy.ofCode? (w / 2 ^ 16 % 16)
  let s ← ETy.ofCode? (w % 16)
  let r ← Rnd.ofCode? (w / 2 ^ 10 % 8)
  let vd ← vregF w 42
  let a ← vsrcF w 36 (bit1 w 15)
  guardI (zeroF w 35 24 && zeroF w 14 13 && zeroF w 9 8) (c d s r vd a (fld 4 w 20) (fld 4 w 4))
/-- An optimiser step (R124). -/
def decOpt (c : ETy → Rnd → SReg → XReg → Bool → Bool → Instr) (w : Nat) : Option Instr := do
  let t ← ETy.ofCode? (w / 2 ^ 16 % 16)
  let r ← Rnd.ofCode? (w / 2 ^ 10 % 8)
  let sb ← f16F w 42
  guardI (zeroF w 35 20 && zeroF w 15 13 && zeroF w 9 2) (c t r sb (fld 6 w 36) (bit1 w 0) (bit1 w 1))

/-- The V0 slot (R48). -/
def decV0 (opc w : Nat) : Option Instr :=
  match opc with
  | 0x001 => decV2 .vfadd w
  | 0x002 => decV2 .vfsub w
  | 0x003 => decV2 .vfmul w
  | 0x004 => decV3 .vfma w
  | 0x005 => decV3 .vfms w
  | 0x006 => decV3 .vfnma w
  | 0x007 => decV2 .vfmin w
  | 0x008 => decV2 .vfmax w
  | 0x009 => decV2 .vfdiv w
  | 0x00A => decV1 .vfsqrt w
  | 0x00B => decV1 .vfrcp w
  | 0x00C => decV1 .vfrsq w
  | 0x00D => decV1 .vfexp2 w
  | 0x00E => decV1 .vflog2 w
  | 0x082 => decV2 .vmul w
  | 0x083 => decV2 .vmulh w
  | 0x1C0 => decV1 .vrsum w
  | 0x1E0 => decOpt .vadamw w
  | 0x1E1 => decOpt .vsgdm w
  | _ => none

/-- VC with two vector sources and two mask destinations (R108). -/
def decVC (c : MReg → MReg → VSrc → VSrc → BitVec 2 → Instr) (w : Nat) : Option Instr := do
  let md ← f16F w 42
  let me ← f16F w 24
  let a ← vsrcF w 36 (bit1 w 15)
  let b ← vsrcF w 30 (bit1 w 14)
  guardI (zeroF w 13 2) (c md me a b (fld 2 w 0))

/-- The V1 slot (R48). -/
def decV1slot (opc w : Nat) : Option Instr :=
  match opc with
  | 0x040 => decV1 .vfabs w
  | 0x041 => decV1 .vfneg w
  | 0x042 => decV1 .vfclass w
  | 0x080 => decV2 .vadd w
  | 0x081 => decV2 .vsub w
  | 0x084 => decV2 .vmin w
  | 0x085 => decV2 .vminu w
  | 0x086 => decV2 .vmax w
  | 0x087 => decV2 .vmaxu w
  | 0x088 => decV1 .vabs w
  | 0x089 => decV2 .vand w
  | 0x08A => decV2 .vor w
  | 0x08B => decV2 .vxor w
  | 0x08C => decV2 .vandn w
  | 0x08D => decV2 .vshl w
  | 0x08E => decV2 .vshr w
  | 0x08F => decV2 .vsar w
  | 0x090 => decV2 .vadds w
  | 0x091 => decV2 .vsubs w
  | 0x100 => (Cond.ofCode? (w / 2 ^ 20 % 16)).bind fun c => (ETy.ofCode? (w / 2 ^ 16 % 16)).bind fun t =>
      decVC (.vcmp c t) w
  | 0x101 => (VfCond.ofCode? (w / 2 ^ 20 % 16)).bind fun c => (ETy.ofCode? (w / 2 ^ 16 % 16)).bind fun t =>
      decVC (.vfcmp c t) w
  | 0x102 => do
      let op ← LogOp.ofCode? (w / 2 ^ 20 % 16)
      let md ← f16F w 42
      let me ← f16F w 24
      let ma ← f16F w 36
      let mb ← f16F w 30
      guardI (zeroF w 19 0) (.mlog op md me ma mb)
  | 0x103 => (f16F w 36).bind fun ma => guardI (zeroF w 35 0) (.mcnt (fld 6 w 42) ma)
  | 0x104 => (f16F w 36).bind fun ma => guardI (zeroF w 35 0) (.mfirst (fld 6 w 42) ma)
  | 0x105 => decV2 .vsel w
  | 0x140 => decCvt .vcvt w
  | 0x141 => decCvt .vcvtu w
  | 0x142 => do
      let d ← ETy.ofCode? (w / 2 ^ 16 % 16)
      let s ← ETy.ofCode? (w % 16)
      let r ← Rnd.ofCode? (w / 2 ^ 10 % 8)
      let vd ← vregF w 42
      let a ← vsrcF w 36 (bit1 w 15)
      let b ← vsrcF w 30 (bit1 w 14)
      let sl ← f16F w 24
      guardI (zeroF w 13 13 && zeroF w 9 8) (.vcvtq d s r vd a b sl (fld 4 w 20) (fld 4 w 4))
  | 0x143 => do
      let vd ← vregF w 42
      let a ← vsrcF w 36 (bit1 w 15)
      guardI (zeroF w 35 24 && w / 2 ^ 16 % 16 == 1 && zeroF w 14 7 && w % 16 == 12) (.vunpk vd a (fld 4 w 20) (fld 3 w 4))
  | 0x180 => (ETy.ofCode? (w / 2 ^ 28 % 16)).bind fun t => (vregF w 42).bind fun vd =>
      if bit1 w 16 then guardI (zeroF w 27 17 && zeroF w 15 0) (.vbcastScalar t vd (fld 6 w 36) (fld 4 w 32))
      else (vsrcF w 36 (bit1 w 27)).bind fun a => guardI (zeroF w 26 17) (.vbcast t vd a (fld 4 w 32) (fld 16 w 0))
  | 0x181 => (ETy.ofCode? (w / 2 ^ 28 % 16)).bind fun t => (vregF w 42).bind fun vd =>
      guardI (zeroF w 35 32 && zeroF w 27 16) (.vins t vd (fld 6 w 36) (fld 16 w 0))
  | 0x182 => (ETy.ofCode? (w / 2 ^ 28 % 16)).bind fun t => (vsrcF w 36 (bit1 w 27)).bind fun a =>
      guardI (zeroF w 35 32 && zeroF w 26 16) (.vext t (fld 6 w 42) a (fld 16 w 0))
  | 0x183 => decV2 .vperm w
  | 0x184 => decV3 .vperm2 w
  | 0x185 => do
      let vd ← vregF w 42
      let a ← vsrcF w 36 (bit1 w 27)
      let b ← vsrcF w 16 (bit1 w 22)
      if bit1 w 23 then guardI (zeroF w 31 28 && zeroF w 26 24 && zeroF w 15 6) (.vrotmScalar vd a b (fld 4 w 32) (fld 6 w 0))
      else guardI (zeroF w 31 28 && zeroF w 26 24 && zeroF w 15 8) (.vrotm vd a b (fld 4 w 32) (fld 8 w 0))
  | 0x186 => decV1 .vcomp w
  | 0x187 => decV1 .vexpd w
  | 0x188 => decV2h .vzip w
  | 0x189 => decV2h .vunzip w
  | 0x1A0 => (vregF w 42).bind fun vd => (vregF w 36).bind fun a =>
      guardI (zeroF w 35 20 && w / 2 ^ 16 % 16 == 11 && zeroF w 15 0) (.vsort vd a)
  | 0x1A1 => (vregF w 42).bind fun vd => (vregF w 36).bind fun a => (vregF w 30).bind fun b =>
      guardI (zeroF w 29 20 && w / 2 ^ 16 % 16 == 11 && zeroF w 15 1) (.vmrg (bit1 w 0) vd a b)
  | 0x1A2 => do
      let vd ← vregF w 42
      let a ← vsrcF w 36 (bit1 w 15)
      let b ← vsrcF w 30 (bit1 w 14)
      guardI (zeroF w 29 24 && w / 2 ^ 16 % 16 == 11 && zeroF w 13 0) (.vmsplit vd a b (fld 4 w 20))
  | 0x1C1 => decV1 .vrmax w
  | 0x1C2 => decV1 .vrmin w
  | 0x1C3 => decV1 .vradd w
  | 0x1E2 => (ETy.ofCode? (w / 2 ^ 28 % 16)).bind fun t => (vregF w 42).bind fun vd =>
      guardI (zeroF w 41 36 && zeroF w 27 0) (.vrand t vd (fld 4 w 32))
  | _ => none

/-- The M slot (R49, R137, R162). MDRAIN with Q and TOV both set is an illegal opcode by the reserved bit 18 of R137, where R147
says that R135 fails (DESIGN CHOICE, log 61). -/
def decM (opc w : Nat) : Option Instr :=
  let st : BitVec 2 := fld 2 w 46
  let at_ : BitVec 2 := fld 2 w 44
  match opc with
  | 0x001 => guardI (zeroF w 31 0) (.mloadw st (fld 4 w 42) (fld 3 w 39) (bit1 w 38) (fld 6 w 32))
  | 0x002 => guardI (zeroF w 45 0) (.mswap st)
  | 0x003 => guardI (zeroF w 27 0) (.mmul st at_ (fld 4 w 40) (fld 3 w 37) (bit1 w 36) (bit1 w 35) (fld 7 w 28))
  | 0x004 => (vsrcF w 22 (bit1 w 21)).bind fun vi => guardI (zeroF w 20 0)
      (.mmulg st at_ (fld 4 w 40) (fld 3 w 37) (bit1 w 36) (bit1 w 35) (fld 7 w 28) vi)
  | 0x005 => (Rnd.ofCode? (w / 2 ^ 24 % 8)).bind fun r =>
      if bit1 w 40 then (vregF w 34).bind fun vd => (ETy.ofCode? (w / 2 ^ 20 % 16)).bind fun t =>
        guardI (zeroF w 43 41 && zeroF w 18 0) (.mdrainV st at_ vd (fld 7 w 27) r t (bit1 w 19))
      else guardI (zeroF w 39 34 && zeroF w 23 20 && zeroF w 13 0)
        (.mdrain st at_ (fld 3 w 41) (fld 7 w 27) r (bit1 w 19) (bit1 w 18) (fld 4 w 14))
  | 0x006 => guardI (zeroF w 43 0) (.mzero st at_)
  | 0x007 => guardI (zeroF w 39 0) (.mcbook st (fld 6 w 40))
  | 0x008 => guardI (zeroF w 47 46 && zeroF w 30 0) (.mdset (fld 3 w 43) (fld 6 w 37) (fld 6 w 31))
  | 0x009 => guardI (zeroF w 47 0) .mfence
  | 0x00A => guardI (zeroF w 45 0) (.mwait st)
  | 0x00B => guardI (zeroF w 39 38 && zeroF w 34 0) (.mstat st (fld 6 w 40) (fld 2 w 36) (bit1 w 35))
  | 0x040 => if bit1 w 39 then guardI (zeroF w 38 0) (.mknotC st (fld 6 w 40))
      else guardI (zeroF w 39 0) (.mknot st (fld 6 w 40))
  | 0x041 => guardI (zeroF w 43 40 && zeroF w 36 36 && zeroF w 27 0) (.mspl st at_ (fld 3 w 37) (bit1 w 35) (fld 7 w 28))
  | 0x042 => guardI (zeroF w 40 40 && zeroF w 36 36 && zeroF w 27 0)
      (.msplb st at_ (fld 3 w 41) (fld 3 w 37) (bit1 w 35) (fld 7 w 28))
  | 0x043 => guardI (zeroF w 45 44 && zeroF w 40 40 && zeroF w 36 0) (.msplg st (fld 3 w 41) (fld 3 w 37))
  | 0x044 => guardI (zeroF w 45 0) (.mrefine st)
  | 0x045 => guardI (zeroF w 37 0) (.mgdrain st (GSrc.ofCode (w / 2 ^ 44 % 4)) (fld 6 w 38))
  | 0x046 => guardI (zeroF w 45 0) (.mgzero st)
  | _ => none

/-- XA with a handle or register, base and offset, mod reserved. -/
def decXA (c : BitVec 6 → XReg → BitVec 32 → Instr) (w : Nat) : Option Instr :=
  guardI (zeroF w 35 32) (c (fld 6 w 42) (fld 6 w 36) (fld 32 w 0))
/-- XA with base and offset only. -/
def decXA0 (c : XReg → BitVec 32 → Instr) (w : Nat) : Option Instr :=
  guardI (zeroF w 47 42 && zeroF w 35 32) (c (fld 6 w 36) (fld 32 w 0))
/-- RI without fields. -/
def dec0 (i : Instr) (w : Nat) : Option Instr := guardI (zeroF w 47 0) i

/-- The X slot (R50 and the encodings of spec/08 to spec/14). -/
def decX (opc w : Nat) : Option Instr :=
  match opc with
  | 0x001 => (vregF w 42).bind fun vd => guardI (zeroF w 35 32) (.ldrow vd (fld 6 w 36) (fld 32 w 0))
  | 0x002 => (vsrcF w 42 false).bind fun vs => some (.strow vs (fld 6 w 36) (fld 32 w 0) (fld 4 w 32))
  | 0x003 => (vregF w 42).bind fun vd => guardI (zeroF w 29 1) (.ldrowr vd (fld 6 w 36) (fld 6 w 30) (bit1 w 0))
  | 0x004 => (vsrcF w 42 false).bind fun vs =>
      guardI (zeroF w 29 5) (.strowr vs (fld 6 w 36) (fld 6 w 30) (fld 4 w 1) (bit1 w 0))
  | 0x005 => do
      let vd ← vregF w 42
      let va ← vregF w 24
      let vc ← vregF w 18
      let op ← AmoOp.ofCode? (w / 2 ^ 14 % 16)
      guardI (zeroF w 35 30 && zeroF w 7 0) (.amo op (bit1 w 13) vd (fld 6 w 36) va vc (fld 4 w 9) (bit1 w 8))
  | 0x006 => do
      let vd ← vregF w 42
      let va ← vregF w 24
      let vc ← vregF w 18
      let op ← AmoOp.ofCode? (w / 2 ^ 14 % 16)
      guardI (zeroF w 6 0)
        (.amor op (bit1 w 13) vd (fld 6 w 36) (fld 6 w 30) va vc (fld 4 w 9) (bit1 w 8) (bit1 w 7))
  | 0x007 => (Scope.ofCode? (w / 2 ^ 32 % 4)).bind fun sc => guardI (zeroF w 47 34 && zeroF w 31 0) (.fence sc)
  | 0x008 => (f16F w 42).bind fun sn => guardI (zeroF w 35 32) (.sbind sn (fld 6 w 36) (fld 32 w 0))
  | 0x009 => (f16F w 42).bind fun sn => guardI (zeroF w 41 0) (.sunbind sn)
  | 0x00A => (f16F w 42).bind fun sn => guardI (zeroF w 35 32) (.sadv sn (fld 6 w 36) (fld 32 w 0))
  | 0x00B => (f16F w 42).bind fun sn => guardI (zeroF w 35 32) (.swait sn (fld 6 w 36) (fld 32 w 0))
  | 0x00C => (f16F w 36).bind fun sn => guardI (zeroF w 35 2) (.sstat (fld 6 w 42) sn (fld 2 w 0))
  | 0x040 => decRI .probe w
  | 0x041 => decXA0 .pfill w
  | 0x042 => decXA0 .pwb w
  | 0x043 =>
      if bit1 w 33 then guardI (zeroF w 41 34 && zeroF w 32 0) (.pinvCfg (fld 6 w 42))
      else if bit1 w 32 then guardI (zeroF w 47 33 && zeroF w 31 0) .pinvAll
      else decXA0 .pinv w
  | 0x044 => guardI (zeroF w 47 8) (.phase (fld 8 w 0))
  | 0x045 => (AmogOp.ofCode? (w / 2 ^ 32 % 8)).bind fun op =>
      some (.amog op (bit1 w 35) (fld 6 w 42) (fld 6 w 36) (fld 32 w 0))
  | 0x060 => guardI (zeroF w 35 6) (.xchain (fld 6 w 42) (fld 6 w 36) (fld 6 w 0))
  | 0x061 => (vregF w 36).bind fun va => guardI (zeroF w 35 5) (.xgath (fld 6 w 42) va (fld 5 w 0))
  | 0x062 => (vregF w 36).bind fun va => guardI (zeroF w 35 5) (.xscat (fld 6 w 42) va (fld 5 w 0))
  | 0x063 => guardI (zeroF w 35 1) (.bwait (fld 6 w 42) (fld 6 w 36) (bit1 w 0))
  | 0x064 =>
      if zeroF w 35 32 then guardI (zeroF w 31 0) (.bsetCfg (fld 6 w 42) (fld 6 w 36))
      else if w / 2 ^ 32 % 16 == 1 then guardI (zeroF w 41 36 && zeroF w 31 0) (.bsetFull (fld 6 w 42))
      else if w / 2 ^ 32 % 16 == 2 then guardI (zeroF w 41 36 && zeroF w 31 0) (.bsetFree (fld 6 w 42))
      else none
  | 0x068 => guardI (zeroF w 35 35)
      (.stashc (fld 6 w 42) (fld 6 w 36) (fld 32 w 0) (bit1 w 32) (bit1 w 33) (bit1 w 34))
  | 0x069 => guardI (zeroF w 35 34 && zeroF w 32 32) (.stashs (fld 6 w 42) (fld 6 w 36) (fld 32 w 0) (bit1 w 33))
  | 0x06A => decXA .stashd w
  | 0x06B => decXA .stashp w
  | 0x06C => decXA .stashf w
  | 0x06D => decXA .stashq w
  | 0x080 => some (.tarm (fld 6 w 42) (fld 6 w 36) (fld 32 w 0) (bit1 w 35) (fld 3 w 32))
  | 0x081 => guardI (zeroF w 47 42 && zeroF w 35 33 && zeroF w 31 16) (.tdec (fld 6 w 36) (bit1 w 32) (fld 16 w 0))
  | 0x082 => dec0 .tdone w
  | 0x083 => guardI (zeroF w 47 32) (.jnext (fld 32 w 0))
  | 0x084 => guardI (zeroF w 47 42 && zeroF w 35 32) (.jprog (fld 6 w 36) (fld 32 w 0))
  | 0x085 => dec0 .early w
  | 0x086 => dec0 .waitvis w
  | 0x087 => guardI (zeroF w 47 8) (.gbar (fld 8 w 0))
  | 0x088 => if bit1 w 32 then guardI (zeroF w 47 33 && zeroF w 31 0) .abortSelf
      else guardI (zeroF w 47 42 && zeroF w 35 0) (.abort (fld 6 w 36))
  | 0x089 => dec0 .abchk w
  | 0x08A => decRRR .qpush w
  | 0x08B => (ClaspQ.ofCode? (w / 2 ^ 3 % 8)).bind fun q =>
      guardI (zeroF w 35 6) (.mbpost (fld 6 w 42) (fld 6 w 36) (fld 3 w 0) q)
  | 0x08C => guardI (zeroF w 35 3) (.verget (fld 6 w 42) (fld 6 w 36) (fld 3 w 0))
  | 0x08D =>
      if w / 2 ^ 3 % 4 == 0 then guardI (zeroF w 35 5) (.verputRel (fld 6 w 42) (fld 6 w 36) (fld 3 w 0))
      else if w / 2 ^ 3 % 4 == 1 then guardI (zeroF w 35 5) (.verputPub (fld 6 w 42) (fld 6 w 36) (fld 3 w 0))
      else if w / 2 ^ 3 % 4 == 2 then guardI (zeroF w 41 5) (.verputAlloc (fld 6 w 42) (fld 3 w 0))
      else none
  | 0x0C0 => guardI (zeroF w 29 9) (.chsend (bit1 w 8) (fld 6 w 42) (fld 6 w 36) (fld 6 w 30) (fld 8 w 0))
  | 0x0C1 => guardI (zeroF w 47 42 && zeroF w 35 32) (.chwin (fld 6 w 36) (fld 8 w 0) (fld 24 w 8))
  | 0x0C2 =>
      if w / 2 ^ 8 % 4 == 0 then guardI (zeroF w 41 10) (.chstatSnd (fld 6 w 42) (fld 8 w 0))
      else if w / 2 ^ 8 % 4 == 1 then guardI (zeroF w 41 10) (.chstatRcv (fld 6 w 42) (fld 8 w 0))
      else if w / 2 ^ 8 % 4 == 2 then guardI (zeroF w 41 11) (.chstatErr (fld 6 w 42) (fld 8 w 0) (bit1 w 10))
      else none
  | 0x0C3 => decXA .coll w
  | 0x0C4 => guardI (zeroF w 35 0) (.cwait (fld 6 w 42) (fld 6 w 36))
  | 0x0C5 => decXA0 .route w
  | 0x0C6 => guardI (zeroF w 41 10) (.rstat (fld 6 w 42) (fld 10 w 0))
  | 0x0E0 => if bit1 w 32 then guardI (zeroF w 35 33 && zeroF w 31 0) (.sginstRm (fld 6 w 42) (fld 6 w 36))
      else decXA .sginst w
  | 0x0E1 => decXA .sqsub w
  | 0x0E2 => if bit1 w 32 then guardI (zeroF w 41 33 && zeroF w 31 4) (.sqwaitT (fld 6 w 42) (fld 4 w 0))
      else guardI (zeroF w 41 33 && zeroF w 31 4) (.sqwait (fld 6 w 42) (fld 4 w 0))
  | 0x0E3 => guardI (zeroF w 41 4) (.sqcan (fld 6 w 42) (fld 4 w 0))
  | 0x0F0 => guardI (zeroF w 47 16) (.trap (fld 16 w 0))
  | 0x0F1 => if bit1 w 32 then guardI (zeroF w 47 33 && zeroF w 31 0) .eretDisc else dec0 .eret w
  | 0x0F2 => guardI (zeroF w 47 42 && zeroF w 35 34) (.ctxsave (fld 6 w 36) (fld 32 w 0) (bit1 w 32) (bit1 w 33))
  | 0x0F3 => decXA0 .ctxload w
  | 0x0F4 => decXA0 .dload w
  | 0x0F5 => if bit1 w 32 then guardI (zeroF w 47 33 && zeroF w 31 0) .tlbinvAll
      else guardI (zeroF w 47 42 && zeroF w 35 0) (.tlbinv (fld 6 w 36))
  | 0x0F6 => guardI (zeroF w 47 16) (.brk (fld 16 w 0))
  | 0x0F7 => guardI (zeroF w 35 0) (.stop (fld 6 w 42) (fld 6 w 36))
  | _ => none

/-- The opcodes that a slot lists (R47 to R50). -/
def listedOpcodes : SlotId → List Nat
  | .A => scalarAB ++ [0x0A0, 0x0A1, 0x0A2, 0x0A3, 0x0A4, 0x0D2, 0x0D3]
  | .B => scalarAB ++ [0x0C0, 0x0C1]
  | .V0 => [0x001, 0x002, 0x003, 0x004, 0x005, 0x006, 0x007, 0x008, 0x009, 0x00A, 0x00B, 0x00C, 0x00D, 0x00E,
            0x082, 0x083, 0x1C0, 0x1E0, 0x1E1]
  | .V1 => [0x040, 0x041, 0x042, 0x080, 0x081, 0x084, 0x085, 0x086, 0x087, 0x088, 0x089, 0x08A, 0x08B, 0x08C,
            0x08D, 0x08E, 0x08F, 0x090, 0x091, 0x100, 0x101, 0x102, 0x103, 0x104, 0x105, 0x140, 0x141, 0x142,
            0x143, 0x180, 0x181, 0x182, 0x183, 0x184, 0x185, 0x186, 0x187, 0x188, 0x189, 0x1A0, 0x1A1, 0x1A2,
            0x1C1, 0x1C2, 0x1C3, 0x1E2]
  | .M => [0x001, 0x002, 0x003, 0x004, 0x005, 0x006, 0x007, 0x008, 0x009, 0x00A, 0x00B, 0x040, 0x041, 0x042,
           0x043, 0x044, 0x045, 0x046]
  | .X => [0x001, 0x002, 0x003, 0x004, 0x005, 0x006, 0x007, 0x008, 0x009, 0x00A, 0x00B, 0x00C, 0x040, 0x041,
           0x042, 0x043, 0x044, 0x045, 0x060, 0x061, 0x062, 0x063, 0x064, 0x068, 0x069, 0x06A, 0x06B, 0x06C,
           0x06D, 0x080, 0x081, 0x082, 0x083, 0x084, 0x085, 0x086, 0x087, 0x088, 0x089, 0x08A, 0x08B, 0x08C,
           0x08D, 0x0C0, 0x0C1, 0x0C2, 0x0C3, 0x0C4, 0x0C5, 0x0C6, 0x0E0, 0x0E1, 0x0E2, 0x0E3, 0x0F0, 0x0F1,
           0x0F2, 0x0F3, 0x0F4, 0x0F5, 0x0F6, 0x0F7]
where
  /-- The opcodes that both A and B decode (R47). -/
  scalarAB : List Nat :=
    [0x001, 0x002, 0x003, 0x004, 0x005, 0x006, 0x007, 0x008, 0x009, 0x00A, 0x00B, 0x00C, 0x00D, 0x00E, 0x00F,
     0x010, 0x011, 0x012, 0x013, 0x014, 0x015, 0x020, 0x021, 0x022, 0x023, 0x024, 0x025, 0x026, 0x027, 0x040,
     0x041, 0x042, 0x043, 0x044, 0x045, 0x046, 0x047, 0x048, 0x080, 0x081, 0x082, 0x083, 0x0D0, 0x0D1]

/-- The instruction of an opcode and its OPS bits in a slot, before the check of its codes. -/
def decOps (slot : SlotId) (opc w : Nat) : Option Instr :=
  if (listedOpcodes slot).contains opc then
    match slot with
    | .A | .B => decScalar opc w
    | .V0 => decV0 opc w
    | .V1 => decV1slot opc w
    | .M => decM opc w
    | .X => decX opc w
  else none

/-- Why a slot word is no instruction (R39, R45, R51). -/
inductive DecodeError where
  /-- The slot does not list the opcode. -/
  | reservedOpcode
  /-- A field holds a reserved value. -/
  | reservedField
  deriving DecidableEq, Repr

/-- A decoded slot: the guard of R32 and the instruction. -/
structure Slot where
  gneg : Bool
  gpred : XReg
  instr : Instr
  deriving DecidableEq, Repr

/-- The decoder of one slot word (R32 to R39). A NOP ignores its guard bits (R34). -/
def decodeSlot (slot : SlotId) (w : BitVec 64) : Except DecodeError Slot :=
  let n := w.toNat
  let opc := n / 2 ^ 48 % 512
  let ops := n % 2 ^ 48
  if opc = 0 then
    if ops = 0 then .ok ⟨false, 0, .nop⟩ else .error .reservedField
  else match decOps slot opc ops with
    | some i => if i.wf then .ok ⟨bit1 n 63, fld 6 n 57, i⟩ else .error .reservedField
    | none => .error (if (listedOpcodes slot).contains opc then .reservedField else .reservedOpcode)

/-- The slots in the order in which their effects take place (R31, R40). -/
def slotOrder : List SlotId := [.A, .B, .V0, .V1, .M, .X]

/-- The position of a slot's word in the bundle (R31), and its bit in a slot mask. -/
def SlotId.bit : SlotId → Nat
  | .A => 5 | .B => 4 | .V0 => 3 | .V1 => 2 | .M => 1 | .X => 0

/-- The 64-bit word of a slot (R31). -/
def slotWord (b : BitVec 384) (slot : SlotId) : BitVec 64 := BitVec.ofNat 64 (b.toNat / 2 ^ (64 * slot.bit))

/-- A bundle decoded slot by slot (DEDUCED, log 49). -/
def decodeBundle (b : BitVec 384) : List (SlotId × Except DecodeError Slot) :=
  slotOrder.map fun sl => (sl, decodeSlot sl (slotWord b sl))

/-- A bit as a number. -/
def b2n (b : Bool) : Nat := if b then 1 else 0
/-- The 6-bit field of a vector source (R36). -/
def VSrc.field : VSrc → Nat
  | .v r => r.toNat
  | .head s _ => 32 + s.toNat
/-- The peek bit of a vector source (R103). -/
def VSrc.peekBit : VSrc → Nat
  | .v _ => 0
  | .head _ p => b2n p

/-- OPS of RRR with three registers. -/
def encR3 (a b c : BitVec 6) : Nat := a.toNat * 2 ^ 42 + b.toNat * 2 ^ 36 + c.toNat * 2 ^ 30
/-- OPS of RRR with two registers. -/
def encR2 (a b : BitVec 6) : Nat := a.toNat * 2 ^ 42 + b.toNat * 2 ^ 36
/-- OPS of RI or XA. -/
def encRI (a b : BitVec 6) (imm : BitVec 32) : Nat := a.toNat * 2 ^ 42 + b.toNat * 2 ^ 36 + imm.toNat
/-- OPS of VR with two sources. -/
def encV2 (t : ETy) (vd : VReg) (a b : VSrc) (mk : MReg) : Nat :=
  vd.toNat * 2 ^ 42 + a.field * 2 ^ 36 + b.field * 2 ^ 30 + mk.toNat * 2 ^ 20 + t.code * 2 ^ 16 +
    a.peekBit * 2 ^ 15 + b.peekBit * 2 ^ 14
/-- OPS of VR with three sources. -/
def encV3 (t : ETy) (vd : VReg) (a b c : VSrc) (mk : MReg) : Nat :=
  vd.toNat * 2 ^ 42 + a.field * 2 ^ 36 + b.field * 2 ^ 30 + c.field * 2 ^ 24 + mk.toNat * 2 ^ 20 + t.code * 2 ^ 16 +
    a.peekBit * 2 ^ 15 + b.peekBit * 2 ^ 14 + c.peekBit * 2 ^ 13
/-- OPS of VR with one source. -/
def encV1 (t : ETy) (vd : VReg) (a : VSrc) (mk : MReg) : Nat :=
  vd.toNat * 2 ^ 42 + a.field * 2 ^ 36 + mk.toNat * 2 ^ 20 + t.code * 2 ^ 16 + a.peekBit * 2 ^ 15
/-- OPS of a conversion (R111). -/
def encCvt (d s : ETy) (r : Rnd) (vd : VReg) (a : VSrc) (mk : MReg) (part : Nat) : Nat :=
  vd.toNat * 2 ^ 42 + a.field * 2 ^ 36 + mk.toNat * 2 ^ 20 + d.code * 2 ^ 16 + a.peekBit * 2 ^ 15 +
    r.code * 2 ^ 10 + part * 2 ^ 4 + s.code
/-- OPS of an optimiser step (R124). -/
def encOpt (t : ETy) (r : Rnd) (sb : SReg) (xh : XReg) (h g16 : Bool) : Nat :=
  sb.toNat * 2 ^ 42 + xh.toNat * 2 ^ 36 + t.code * 2 ^ 16 + r.code * 2 ^ 10 + b2n g16 * 2 + b2n h
/-- OPS of VC with two vector sources (R108). -/
def encVC (cond : Nat) (t : ETy) (md me : MReg) (a b : VSrc) (sel : BitVec 2) : Nat :=
  md.toNat * 2 ^ 42 + a.field * 2 ^ 36 + b.field * 2 ^ 30 + me.toNat * 2 ^ 24 + cond * 2 ^ 20 + t.code * 2 ^ 16 +
    a.peekBit * 2 ^ 15 + b.peekBit * 2 ^ 14 + sel.toNat
/-- OPS of MMUL and MMULG without VI (R137). -/
def encMM (st at_ : BitVec 2) (set : BitVec 4) (da : BitVec 3) (rev acc : Bool) (row0 : BitVec 7) : Nat :=
  st.toNat * 2 ^ 46 + at_.toNat * 2 ^ 44 + set.toNat * 2 ^ 40 + da.toNat * 2 ^ 37 + b2n rev * 2 ^ 36 +
    b2n acc * 2 ^ 35 + row0.toNat * 2 ^ 28
/-- OPS of AMO and AMOR (R181). -/
def encAmo (op : AmoOp) (w64 : Bool) (vd : VReg) (r1 r2 : Nat) (va vc : VReg) (mk : MReg) (nr acq : Bool) : Nat :=
  vd.toNat * 2 ^ 42 + r1 * 2 ^ 36 + r2 * 2 ^ 30 + va.toNat * 2 ^ 24 + vc.toNat * 2 ^ 18 + op.code * 2 ^ 14 +
    b2n w64 * 2 ^ 13 + mk.toNat * 2 ^ 9 + b2n nr * 2 ^ 8 + b2n acq * 2 ^ 7

/-- Where an instruction is accepted, its opcode and its OPS bits (R47 to R50); an event has none. -/
structure Enc where
  slots : List SlotId
  opc : Nat
  ops : Nat
  deriving DecidableEq, Repr

/-- A and B, A only, B only. -/
def encAB (opc ops : Nat) : Option Enc := some ⟨[.A, .B], opc, ops⟩
/-- V0. -/
def encV0 (opc ops : Nat) : Option Enc := some ⟨[.V0], opc, ops⟩
/-- V1. -/
def encV1s (opc ops : Nat) : Option Enc := some ⟨[.V1], opc, ops⟩
/-- M. -/
def encM (opc ops : Nat) : Option Enc := some ⟨[.M], opc, ops⟩
/-- X. -/
def encX (opc ops : Nat) : Option Enc := some ⟨[.X], opc, ops⟩

set_option maxHeartbeats 2000000 in
/-- The encoding of an instruction (R47 to R50 and the encodings of the families). -/
def Instr.enc : Instr → Option Enc
  | .nop => some ⟨slotOrder, 0, 0⟩
  | .add a b c => encAB 0x001 (encR3 a b c)
  | .sub a b c => encAB 0x002 (encR3 a b c)
  | .and a b c => encAB 0x003 (encR3 a b c)
  | .or a b c => encAB 0x004 (encR3 a b c)
  | .xor a b c => encAB 0x005 (encR3 a b c)
  | .andn a b c => encAB 0x006 (encR3 a b c)
  | .shl a b c => encAB 0x007 (encR3 a b c)
  | .shr a b c => encAB 0x008 (encR3 a b c)
  | .sar a b c => encAB 0x009 (encR3 a b c)
  | .rol a b c => encAB 0x00A (encR3 a b c)
  | .mul a b c => encAB 0x00B (encR3 a b c)
  | .mulh a b c => encAB 0x00C (encR3 a b c)
  | .mulhu a b c => encAB 0x00D (encR3 a b c)
  | .div a b c => encAB 0x00E (encR3 a b c)
  | .divu a b c => encAB 0x00F (encR3 a b c)
  | .rem a b c => encAB 0x010 (encR3 a b c)
  | .remu a b c => encAB 0x011 (encR3 a b c)
  | .min a b c => encAB 0x012 (encR3 a b c)
  | .max a b c => encAB 0x013 (encR3 a b c)
  | .minu a b c => encAB 0x014 (encR3 a b c)
  | .maxu a b c => encAB 0x015 (encR3 a b c)
  | .clz a b => encAB 0x020 (encR2 a b)
  | .ctz a b => encAB 0x021 (encR2 a b)
  | .popc a b => encAB 0x022 (encR2 a b)
  | .bswap a b => encAB 0x023 (encR2 a b)
  | .extr a b p l => encAB 0x024 (encR2 a b + p.toNat * 2 ^ 12 + l.toNat)
  | .ins a b p l => encAB 0x025 (encR2 a b + p.toNat * 2 ^ 12 + l.toNat)
  | .sext a b l => encAB 0x026 (encR2 a b + l.toNat)
  | .zext a b l => encAB 0x027 (encR2 a b + l.toNat)
  | .addi a b i => encAB 0x040 (encRI a b i)
  | .andi a b i => encAB 0x041 (encRI a b i)
  | .ori a b i => encAB 0x042 (encRI a b i)
  | .xori a b i => encAB 0x043 (encRI a b i)
  | .shli a b i => encAB 0x044 (encR2 a b + i.toNat)
  | .shri a b i => encAB 0x045 (encR2 a b + i.toNat)
  | .sari a b i => encAB 0x046 (encR2 a b + i.toNat)
  | .li a i => encAB 0x047 (a.toNat * 2 ^ 42 + i.toNat)
  | .lih a b i => encAB 0x048 (encRI a b i)
  | .cmp c pd pe a b => encAB 0x080 (encR3 pd a b + pe.toNat * 2 ^ 24 + c.code * 2 ^ 20)
  | .cmpi c pd pe a i => encAB 0x081 (encR3 pd a pe + c.code * 2 ^ 26 + i.toNat)
  | .plog c pd pe a b => encAB 0x082 (encR3 pd a b + pe.toNat * 2 ^ 24 + c.code * 2 ^ 20)
  | .sel a pc b c => encAB 0x083 (encR3 a b c + pc.toNat * 2 ^ 24)
  | .br i => some ⟨[.A], 0x0A0, i.toNat⟩
  | .brx b i => some ⟨[.A], 0x0A1, b.toNat * 2 ^ 36 + i.toNat⟩
  | .call a i => some ⟨[.A], 0x0A2, a.toNat * 2 ^ 42 + i.toNat⟩
  | .ret b => some ⟨[.A], 0x0A3, b.toNat * 2 ^ 36⟩
  | .loop a i => some ⟨[.A], 0x0A4, a.toNat * 2 ^ 42 + i.toNat⟩
  | .lds a b o => some ⟨[.B], 0x0C0, encRI a b o⟩
  | .sts a b o => some ⟨[.B], 0x0C1, encRI a b o⟩
  | .srget a n => encAB 0x0D0 (a.toNat * 2 ^ 42 + n.toNat)
  | .srset n b => encAB 0x0D1 (b.toNat * 2 ^ 36 + n.toNat)
  | .wfe a i => some ⟨[.A], 0x0D2, a.toNat * 2 ^ 42 + i.toNat⟩
  | .sev m => some ⟨[.A], 0x0D3, m.toNat⟩
  | .sevRemote b m => some ⟨[.A], 0x0D3, b.toNat * 2 ^ 36 + 2 ^ 32 + m.toNat⟩
  | .vfadd t d a b m => encV0 0x001 (encV2 t d a b m)
  | .vfsub t d a b m => encV0 0x002 (encV2 t d a b m)
  | .vfmul t d a b m => encV0 0x003 (encV2 t d a b m)
  | .vfma t d a b c m => encV0 0x004 (encV3 t d a b c m)
  | .vfms t d a b c m => encV0 0x005 (encV3 t d a b c m)
  | .vfnma t d a b c m => encV0 0x006 (encV3 t d a b c m)
  | .vfmin t d a b m => encV0 0x007 (encV2 t d a b m)
  | .vfmax t d a b m => encV0 0x008 (encV2 t d a b m)
  | .vfdiv t d a b m => encV0 0x009 (encV2 t d a b m)
  | .vfsqrt t d a m => encV0 0x00A (encV1 t d a m)
  | .vfrcp t d a m => encV0 0x00B (encV1 t d a m)
  | .vfrsq t d a m => encV0 0x00C (encV1 t d a m)
  | .vfexp2 t d a m => encV0 0x00D (encV1 t d a m)
  | .vflog2 t d a m => encV0 0x00E (encV1 t d a m)
  | .vfabs t d a m => encV1s 0x040 (encV1 t d a m)
  | .vfneg t d a m => encV1s 0x041 (encV1 t d a m)
  | .vfclass t d a m => encV1s 0x042 (encV1 t d a m)
  | .vadd t d a b m => encV1s 0x080 (encV2 t d a b m)
  | .vsub t d a b m => encV1s 0x081 (encV2 t d a b m)
  | .vmul t d a b m => encV0 0x082 (encV2 t d a b m)
  | .vmulh t d a b m => encV0 0x083 (encV2 t d a b m)
  | .vmin t d a b m => encV1s 0x084 (encV2 t d a b m)
  | .vminu t d a b m => encV1s 0x085 (encV2 t d a b m)
  | .vmax t d a b m => encV1s 0x086 (encV2 t d a b m)
  | .vmaxu t d a b m => encV1s 0x087 (encV2 t d a b m)
  | .vabs t d a m => encV1s 0x088 (encV1 t d a m)
  | .vand t d a b m => encV1s 0x089 (encV2 t d a b m)
  | .vor t d a b m => encV1s 0x08A (encV2 t d a b m)
  | .vxor t d a b m => encV1s 0x08B (encV2 t d a b m)
  | .vandn t d a b m => encV1s 0x08C (encV2 t d a b m)
  | .vshl t d a b m => encV1s 0x08D (encV2 t d a b m)
  | .vshr t d a b m => encV1s 0x08E (encV2 t d a b m)
  | .vsar t d a b m => encV1s 0x08F (encV2 t d a b m)
  | .vadds t d a b m => encV1s 0x090 (encV2 t d a b m)
  | .vsubs t d a b m => encV1s 0x091 (encV2 t d a b m)
  | .vcmp c t md me a b s => encV1s 0x100 (encVC c.code t md me a b s)
  | .vfcmp c t md me a b s => encV1s 0x101 (encVC c.code t md me a b s)
  | .mlog op md me ma mb => encV1s 0x102
      (md.toNat * 2 ^ 42 + ma.toNat * 2 ^ 36 + mb.toNat * 2 ^ 30 + me.toNat * 2 ^ 24 + op.code * 2 ^ 20)
  | .mcnt x ma => encV1s 0x103 (x.toNat * 2 ^ 42 + ma.toNat * 2 ^ 36)
  | .mfirst x ma => encV1s 0x104 (x.toNat * 2 ^ 42 + ma.toNat * 2 ^ 36)
  | .vsel t d a b m => encV1s 0x105 (encV2 t d a b m)
  | .vcvt d s r vd a m p => encV1s 0x140 (encCvt d s r vd a m p.toNat)
  | .vcvtu d s r vd a m p => encV1s 0x141 (encCvt d s r vd a m p.toNat)
  | .vcvtq d s r vd a b sl m p => encV1s 0x142
      (encCvt d s r vd a m p.toNat + b.field * 2 ^ 30 + sl.toNat * 2 ^ 24 + b.peekBit * 2 ^ 14)
  | .vunpk vd a m p => encV1s 0x143 (encCvt .bf16 .lq2 .rne vd a m p.toNat)
  | .vbcast t d a m i => encV1s 0x180
      (d.toNat * 2 ^ 42 + a.field * 2 ^ 36 + m.toNat * 2 ^ 32 + t.code * 2 ^ 28 + a.peekBit * 2 ^ 27 + i.toNat)
  | .vbcastScalar t d x m => encV1s 0x180
      (d.toNat * 2 ^ 42 + x.toNat * 2 ^ 36 + m.toNat * 2 ^ 32 + t.code * 2 ^ 28 + 2 ^ 16)
  | .vins t d x i => encV1s 0x181 (d.toNat * 2 ^ 42 + x.toNat * 2 ^ 36 + t.code * 2 ^ 28 + i.toNat)
  | .vext t x a i => encV1s 0x182
      (x.toNat * 2 ^ 42 + a.field * 2 ^ 36 + t.code * 2 ^ 28 + a.peekBit * 2 ^ 27 + i.toNat)
  | .vperm t d a b m => encV1s 0x183 (encV2 t d a b m)
  | .vperm2 t d a b c m => encV1s 0x184 (encV3 t d a b c m)
  | .vzip h t d a b m => encV1s 0x188 (encV2 t d a b m + b2n h)
  | .vunzip h t d a b m => encV1s 0x189 (encV2 t d a b m + b2n h)
  | .vcomp t d a m => encV1s 0x186 (encV1 t d a m)
  | .vexpd t d a m => encV1s 0x187 (encV1 t d a m)
  | .vrotm d a b m s => encV1s 0x185
      (d.toNat * 2 ^ 42 + a.field * 2 ^ 36 + m.toNat * 2 ^ 32 + a.peekBit * 2 ^ 27 + b.peekBit * 2 ^ 22 +
        b.field * 2 ^ 16 + s.toNat)
  | .vrotmScalar d a b m x => encV1s 0x185
      (d.toNat * 2 ^ 42 + a.field * 2 ^ 36 + m.toNat * 2 ^ 32 + a.peekBit * 2 ^ 27 + 2 ^ 23 + b.peekBit * 2 ^ 22 +
        b.field * 2 ^ 16 + x.toNat)
  | .vrsum t d a m => encV0 0x1C0 (encV1 t d a m)
  | .vrmax t d a m => encV1s 0x1C1 (encV1 t d a m)
  | .vrmin t d a m => encV1s 0x1C2 (encV1 t d a m)
  | .vradd t d a m => encV1s 0x1C3 (encV1 t d a m)
  | .vsort d a => encV1s 0x1A0 (d.toNat * 2 ^ 42 + a.toNat * 2 ^ 36 + 11 * 2 ^ 16)
  | .vmrg h d a b => encV1s 0x1A1 (d.toNat * 2 ^ 42 + a.toNat * 2 ^ 36 + b.toNat * 2 ^ 30 + 11 * 2 ^ 16 + b2n h)
  | .vmsplit d a b m => encV1s 0x1A2 (encV2 .i64 d a b m)
  | .vadamw t r sb x h g => encV0 0x1E0 (encOpt t r sb x h g)
  | .vsgdm t r sb x h g => encV0 0x1E1 (encOpt t r sb x h g)
  | .vrand t d m => encV1s 0x1E2 (d.toNat * 2 ^ 42 + m.toNat * 2 ^ 32 + t.code * 2 ^ 28)
  | .mloadw st set dw sp xm => encM 0x001
      (st.toNat * 2 ^ 46 + set.toNat * 2 ^ 42 + dw.toNat * 2 ^ 39 + b2n sp * 2 ^ 38 + xm.toNat * 2 ^ 32)
  | .mswap st => encM 0x002 (st.toNat * 2 ^ 46)
  | .mmul st a set da rev acc row0 => encM 0x003 (encMM st a set da rev acc row0)
  | .mmulg st a set da rev acc row0 vi => encM 0x004
      (encMM st a set da rev acc row0 + vi.field * 2 ^ 22 + vi.peekBit * 2 ^ 21)
  | .mdrain st a d row0 r clr q sl => encM 0x005
      (st.toNat * 2 ^ 46 + a.toNat * 2 ^ 44 + d.toNat * 2 ^ 41 + row0.toNat * 2 ^ 27 + r.code * 2 ^ 24 +
        b2n clr * 2 ^ 19 + b2n q * 2 ^ 18 + sl.toNat * 2 ^ 14)
  | .mdrainV st a vd row0 r t clr => encM 0x005
      (st.toNat * 2 ^ 46 + a.toNat * 2 ^ 44 + 2 ^ 40 + vd.toNat * 2 ^ 34 + row0.toNat * 2 ^ 27 + r.code * 2 ^ 24 +
        t.code * 2 ^ 20 + b2n clr * 2 ^ 19)
  | .mzero st a => encM 0x006 (st.toNat * 2 ^ 46 + a.toNat * 2 ^ 44)
  | .mcbook st x => encM 0x007 (st.toNat * 2 ^ 46 + x.toNat * 2 ^ 40)
  | .mdset d lo hi => encM 0x008 (d.toNat * 2 ^ 43 + lo.toNat * 2 ^ 37 + hi.toNat * 2 ^ 31)
  | .mfence => encM 0x009 0
  | .mwait st => encM 0x00A (st.toNat * 2 ^ 46)
  | .mstat st x se clr => encM 0x00B
      (st.toNat * 2 ^ 46 + x.toNat * 2 ^ 40 + se.toNat * 2 ^ 36 + b2n clr * 2 ^ 35)
  | .mknot st x => encM 0x040 (st.toNat * 2 ^ 46 + x.toNat * 2 ^ 40)
  | .mknotC st x => encM 0x040 (st.toNat * 2 ^ 46 + x.toNat * 2 ^ 40 + 2 ^ 39)
  | .mspl st a da acc row0 => encM 0x041
      (st.toNat * 2 ^ 46 + a.toNat * 2 ^ 44 + da.toNat * 2 ^ 37 + b2n acc * 2 ^ 35 + row0.toNat * 2 ^ 28)
  | .msplb st a dg da acc row0 => encM 0x042
      (st.toNat * 2 ^ 46 + a.toNat * 2 ^ 44 + dg.toNat * 2 ^ 41 + da.toNat * 2 ^ 37 + b2n acc * 2 ^ 35 +
        row0.toNat * 2 ^ 28)
  | .msplg st dg da => encM 0x043 (st.toNat * 2 ^ 46 + dg.toNat * 2 ^ 41 + da.toNat * 2 ^ 37)
  | .mrefine st => encM 0x044 (st.toNat * 2 ^ 46)
  | .mgdrain st src x => encM 0x045 (st.toNat * 2 ^ 46 + src.code * 2 ^ 44 + x.toNat * 2 ^ 38)
  | .mgzero st => encM 0x046 (st.toNat * 2 ^ 46)
  | .ldrow d b o => encX 0x001 (d.toNat * 2 ^ 42 + b.toNat * 2 ^ 36 + o.toNat)
  | .strow v b o m => encX 0x002 (v.field * 2 ^ 42 + b.toNat * 2 ^ 36 + m.toNat * 2 ^ 32 + o.toNat)
  | .ldrowr d c a q => encX 0x003 (d.toNat * 2 ^ 42 + c.toNat * 2 ^ 36 + a.toNat * 2 ^ 30 + b2n q)
  | .strowr v c a m q => encX 0x004 (v.field * 2 ^ 42 + c.toNat * 2 ^ 36 + a.toNat * 2 ^ 30 + m.toNat * 2 + b2n q)
  | .amo op w d a va vc m nr => encX 0x005 (encAmo op w d a.toNat 0 va vc m nr false)
  | .amor op w d c a va vc m nr q => encX 0x006 (encAmo op w d c.toNat a.toNat va vc m nr q)
  | .fence sc => encX 0x007 (sc.code * 2 ^ 32)
  | .sbind s b o => encX 0x008 (s.toNat * 2 ^ 42 + b.toNat * 2 ^ 36 + o.toNat)
  | .sunbind s => encX 0x009 (s.toNat * 2 ^ 42)
  | .sadv s r i => encX 0x00A (s.toNat * 2 ^ 42 + r.toNat * 2 ^ 36 + i.toNat)
  | .swait s r i => encX 0x00B (s.toNat * 2 ^ 42 + r.toNat * 2 ^ 36 + i.toNat)
  | .sstat x s se => encX 0x00C (x.toNat * 2 ^ 42 + s.toNat * 2 ^ 36 + se.toNat)
  | .probe a b i => encX 0x040 (encRI a b i)
  | .pfill b o => encX 0x041 (b.toNat * 2 ^ 36 + o.toNat)
  | .pwb b o => encX 0x042 (b.toNat * 2 ^ 36 + o.toNat)
  | .pinv b o => encX 0x043 (b.toNat * 2 ^ 36 + o.toNat)
  | .pinvAll => encX 0x043 (2 ^ 32)
  | .pinvCfg x => encX 0x043 (x.toNat * 2 ^ 42 + 2 ^ 33)
  | .phase g => encX 0x044 g.toNat
  | .amog op w x b o => encX 0x045
      (x.toNat * 2 ^ 42 + b.toNat * 2 ^ 36 + b2n w * 2 ^ 35 + op.code * 2 ^ 32 + o.toNat)
  | .xchain a h c => encX 0x060 (encR2 a h + c.toNat)
  | .xgath h va n => encX 0x061 (h.toNat * 2 ^ 42 + va.toNat * 2 ^ 36 + n.toNat)
  | .xscat h va n => encX 0x062 (h.toNat * 2 ^ 42 + va.toNat * 2 ^ 36 + n.toNat)
  | .bwait a h f => encX 0x063 (encR2 a h + b2n f)
  | .bsetCfg h x => encX 0x064 (encR2 h x)
  | .bsetFull h => encX 0x064 (h.toNat * 2 ^ 42 + 2 ^ 32)
  | .bsetFree h => encX 0x064 (h.toNat * 2 ^ 42 + 2 * 2 ^ 32)
  | .stashc h b o m d f => encX 0x068 (encRI h b o + b2n m * 2 ^ 32 + b2n d * 2 ^ 33 + b2n f * 2 ^ 34)
  | .stashs h b o d => encX 0x069 (encRI h b o + b2n d * 2 ^ 33)
  | .stashd h b o => encX 0x06A (encRI h b o)
  | .stashp h b o => encX 0x06B (encRI h b o)
  | .stashf h b o => encX 0x06C (encRI h b o)
  | .stashq h b o => encX 0x06D (encRI h b o)
  | .tarm a b o own die => encX 0x080 (encRI a b o + b2n own * 2 ^ 35 + die.toNat * 2 ^ 32)
  | .tdec b e n => encX 0x081 (b.toNat * 2 ^ 36 + b2n e * 2 ^ 32 + n.toNat)
  | .tdone => encX 0x082 0
  | .jnext i => encX 0x083 i.toNat
  | .jprog b i => encX 0x084 (b.toNat * 2 ^ 36 + i.toNat)
  | .early => encX 0x085 0
  | .waitvis => encX 0x086 0
  | .gbar g => encX 0x087 g.toNat
  | .abort b => encX 0x088 (b.toNat * 2 ^ 36)
  | .abortSelf => encX 0x088 (2 ^ 32)
  | .abchk => encX 0x089 0
  | .qpush a b c => encX 0x08A (encR3 a b c)
  | .mbpost a b s q => encX 0x08B (encR2 a b + q.code * 2 ^ 3 + s.toNat)
  | .verget a b s => encX 0x08C (encR2 a b + s.toNat)
  | .verputRel a b s => encX 0x08D (encR2 a b + s.toNat)
  | .verputPub a b s => encX 0x08D (encR2 a b + 2 ^ 3 + s.toNat)
  | .verputAlloc a s => encX 0x08D (a.toNat * 2 ^ 42 + 2 * 2 ^ 3 + s.toNat)
  | .chsend s t a l c => encX 0x0C0 (encR3 t a l + b2n s * 2 ^ 8 + c.toNat)
  | .chwin b c n => encX 0x0C1 (b.toNat * 2 ^ 36 + n.toNat * 2 ^ 8 + c.toNat)
  | .chstatSnd a c => encX 0x0C2 (a.toNat * 2 ^ 42 + c.toNat)
  | .chstatRcv a c => encX 0x0C2 (a.toNat * 2 ^ 42 + 2 ^ 8 + c.toNat)
  | .chstatErr a c clr => encX 0x0C2 (a.toNat * 2 ^ 42 + b2n clr * 2 ^ 10 + 2 * 2 ^ 8 + c.toNat)
  | .coll a b o => encX 0x0C3 (encRI a b o)
  | .cwait a b => encX 0x0C4 (encR2 a b)
  | .route b o => encX 0x0C5 (b.toNat * 2 ^ 36 + o.toNat)
  | .rstat a s => encX 0x0C6 (a.toNat * 2 ^ 42 + s.toNat)
  | .sginst a b o => encX 0x0E0 (encRI a b o)
  | .sginstRm a b => encX 0x0E0 (encR2 a b + 2 ^ 32)
  | .sqsub a b o => encX 0x0E1 (encRI a b o)
  | .sqwait a q => encX 0x0E2 (a.toNat * 2 ^ 42 + q.toNat)
  | .sqwaitT a q => encX 0x0E2 (a.toNat * 2 ^ 42 + 2 ^ 32 + q.toNat)
  | .sqcan a q => encX 0x0E3 (a.toNat * 2 ^ 42 + q.toNat)
  | .trap n => encX 0x0F0 n.toNat
  | .eret => encX 0x0F1 0
  | .eretDisc => encX 0x0F1 (2 ^ 32)
  | .ctxsave b o d l => encX 0x0F2 (b.toNat * 2 ^ 36 + b2n d * 2 ^ 32 + b2n l * 2 ^ 33 + o.toNat)
  | .ctxload b o => encX 0x0F3 (b.toNat * 2 ^ 36 + o.toNat)
  | .dload b o => encX 0x0F4 (b.toNat * 2 ^ 36 + o.toNat)
  | .tlbinv b => encX 0x0F5 (b.toNat * 2 ^ 36)
  | .tlbinvAll => encX 0x0F5 (2 ^ 32)
  | .brk n => encX 0x0F6 n.toNat
  | .stop a b => encX 0x0F7 (encR2 a b)
  | _ => none

/-- The slot word of a guarded instruction (R32); 0 for an event, which has no word. -/
def encodeSlot (sl : Slot) : BitVec 64 :=
  match sl.instr.enc with
  | some e => BitVec.ofNat 64 (b2n sl.gneg * 2 ^ 63 + sl.gpred.toNat * 2 ^ 57 + e.opc * 2 ^ 48 + e.ops)
  | none => 0

/-- The bundle that holds one slot word and NOPs elsewhere (R31). -/
def oneSlotBundle (slot : SlotId) (w : BitVec 64) : BitVec 384 := BitVec.ofNat 384 (w.toNat * 2 ^ (64 * slot.bit))

/-- The bundle in which an instruction stands alone, in the first slot that accepts it, always enabled. -/
def encode (i : Instr) : Option (BitVec 384) :=
  match i.enc with
  | some ⟨slot :: _, _, _⟩ => some (oneSlotBundle slot (encodeSlot ⟨false, 0, i⟩))
  | _ => none

/-- The one instruction of a bundle of which at most one slot is not NOP; none when a slot is reserved or when two
slots hold instructions. -/
def soleInstr (l : List (SlotId × Except DecodeError Slot)) : Option Instr :=
  match l.filter (fun e => match e.2 with | .ok ⟨_, _, .nop⟩ => false | _ => true) with
  | [] => some .nop
  | [(_, .ok s)] => some s.instr
  | _ => none

/-- The instruction read from a word laid out as the host numbers it: the 384 bits of a bundle, bit 0 the least
significant bit of its first 16-bit word (R22, DEDUCED, log 30). -/
def decodeTableWord (nbits w : Nat) : Option Instr := soleInstr (decodeBundle (BitVec.ofNat 384 (w % 2 ^ nbits)))

end Sys2Proof
end

