-- ==== Sys2Proof/Config.lean ====
section
/-! DEFINITION. What the spec leaves to an implementation: free values without a body, of which nothing can be proved. -/

namespace Sys2Proof.Config

/-- SRCE of the fault of a message that meets an uncorrectable error (DESIGN CHOICE, log 10). -/
opaque messageSrce : Nat → Nat

/-- Byte i of the LOSSLESS image of data (R249, DESIGN CHOICE, log 13). -/
opaque losslessByte : List Byte → Nat → Byte

/-- What fixes the size of the LOSSLESS image of data within the bounds of R249 (DESIGN CHOICE, log 13). -/
opaque losslessGrain : List Byte → Nat

/-- What decoding bytes that are no intact image of Locket's gives; none where the header is not valid (R242, DESIGN CHOICE, log 13). -/
opaque losslessOther : Nat → Option (List Byte)

/-- How far decoding bytes that are no intact image of Locket's reads (R242, DESIGN CHOICE, log 13). -/
opaque losslessReach : Nat → Nat

/-- Bytes 7:0 of the result record of a query whose DONE handle CTXLOAD restored: the image does not hold them (R333,
R346, DESIGN CHOICE, log 16). -/
opaque savedQuery : Nat → Word

/-- SR_EINFO[15:0] of a fetch trap whose code word cannot be read (R24, R27, DESIGN CHOICE, log 19). -/
opaque unreadWord : Nat → Nat

/-- The digest of firmware stage i, 0 to 3, that the boot ROM measures (R358, PRESUMED, log 17). -/
opaque firmwareDigest : Nat → Nat

/-- Temperature i that Norlys reads, at one read (R359, DESIGN CHOICE, log 63). -/
opaque temperature : Nat → Nat → Word

/-- The power that Norlys reads, at one read (R359, DESIGN CHOICE, log 63). -/
opaque powerDraw : Nat → Word

/-- The body of an answer to an SPDM request (R358, PRESUMED, log 17). -/
opaque spdmBody : Nat → List Byte

end Sys2Proof.Config
end

