-- ==== Sys2Proof/Machine/Tab.lean ====
section
/-! DEFINITION. Tables: a list of (key, value) pairs in one canonical form, the keys strictly rising and no entry
equal to what an unlisted key reads as. Every memory, register file and array of units of State is one. -/

namespace Sys2Proof.Machine

/-- A table from numbers to values. -/
abbrev Tab (α : Type) := List (Nat × α)

/-- The value under a key; `d` is what an unlisted key reads as. -/
def tget {α : Type} (d : α) (k : Nat) : Tab α → α
  | [] => d
  | e :: r => if e.1 = k then e.2 else tget d k r

/-- The entries of a run of values at consecutive keys from `k`. -/
def tcells {α : Type} [DecidableEq α] (d : α) (k : Nat) : List α → Tab α
  | [] => []
  | v :: r => if v = d then tcells d (k + 1) r else (k, v) :: tcells d (k + 1) r

/-- The table with a run of consecutive keys set, from `k` up; a key set to `d` is not listed. -/
def tputN {α : Type} [DecidableEq α] (d : α) (k : Nat) (l : List α) (t : Tab α) : Tab α :=
  t.filter (fun e => decide (e.1 < k)) ++ tcells d k l ++ t.filter (fun e => decide (k + l.length ≤ e.1))

/-- The table with a key set to a value; setting it to `d` removes the entry. -/
def tput {α : Type} [DecidableEq α] (d : α) (k : Nat) (v : α) (t : Tab α) : Tab α := tputN d k [v] t

/-- The table with the value under a key changed. -/
def tmod {α : Type} [DecidableEq α] (d : α) (k : Nat) (f : α → α) (t : Tab α) : Tab α := tput d k (f (tget d k t)) t

/-- The table with every listed value changed; one changed to `d` is no longer listed. -/
def tmap {α : Type} [DecidableEq α] (d : α) (f : α → α) (t : Tab α) : Tab α :=
  (t.map fun e => (e.1, f e.2)).filter fun e => decide (e.2 ≠ d)

/-- Whether a key above `lo` starts each entry, and the values differ from `d`. -/
def twfFrom {α : Type} [DecidableEq α] (d : α) : Option Nat → Tab α → Bool
  | _, [] => true
  | lo, e :: r => (match lo with | none => true | some j => decide (j < e.1)) && !decide (e.2 = d) && twfFrom d (some e.1) r

/-- The canonical form. -/
def twf {α : Type} [DecidableEq α] (d : α) (t : Tab α) : Bool := twfFrom d none t

/-- The values of `n` consecutive keys from `k`. -/
def tgetN {α : Type} (d : α) (k n : Nat) (t : Tab α) : List α :=
  (List.range n).map fun i => tget d (k + i) (t.filter fun e => decide (k ≤ e.1) && decide (e.1 < k + n))

/-- A memory: bytes by address, each unlisted address reading as 0 (DESIGN CHOICE, log 4). -/
abbrev Memory := Tab Byte

/-- The canonical form of a memory. -/
def Memory.wf (m : Memory) : Bool := twf (0 : Byte) m

/-- A number as `n` bytes, the lowest first (R3). -/
def toBytes : Nat → Nat → List Byte
  | 0, _ => []
  | n + 1, v => BitVec.ofNat 8 v :: toBytes n (v / 256)

/-- Bytes as a number, the first lowest (R3). -/
def ofBytes : List Byte → Nat
  | [] => 0
  | b :: r => b.toNat + 256 * ofBytes r

/-- `n` bytes of a memory as a number (R3). -/
def Memory.read (m : Memory) (a n : Nat) : Nat := ofBytes (tgetN (0 : Byte) a n m)

/-- A number written as `n` bytes (R3). -/
def Memory.write (m : Memory) (a n v : Nat) : Memory := tputN (0 : Byte) a (toBytes n v) m

end Sys2Proof.Machine
end

