-- ==== Sys2Proof/Machine/State.lean ====
section
/-! DEFINITION. The state of the part as plain data, and the state after reset. Field names are those of the spec;
each docstring names the rule. A table (Tab) lists only what differs from the value after reset. -/

namespace Sys2Proof.Machine

/-! ## Contexts -/

/-- The register files of a context: x, p, v, m (R36). -/
structure RegFile where
  x : Tab Word := []
  p : Tab Bool := []
  v : Tab Row := []
  m : Tab Word := []
  deriving DecidableEq, Repr

/-- The trap record (R339). -/
structure TrapRegs where
  cause : Word := 0
  epc : Word := 0
  emask : Word := 0
  eaddr : Word := 0
  einfo : Word := 0
  deriving DecidableEq, Repr

/-- SR_FPSTAT, SR_OPTSTAT, SR_RNDSEED and SR_RNDCTR (R68, R70, R127). -/
structure StatRegs where
  fpstat : Word := 0
  optstat : Word := 0
  rndseed : Word := 0
  rndctr : Word := 0
  deriving DecidableEq, Repr

/-- A condition on which a bundle blocked (R98). -/
inductive ParkCond where
  /-- An IN stream with fewer than n filled slots (R191, R194). -/
  | inAvail (sn : SReg) (n : Nat)
  /-- An OUT stream with fewer than n free slots (R192, R194). -/
  | outFree (sn : SReg) (n : Nat)
  /-- A handle that is not FULL (R232). -/
  | handleFull (h : BitVec 6)
  /-- A handle that is not FREE (R232). -/
  | handleFree (h : BitVec 6)
  /-- A channel window at zero (R293). -/
  | window (ch : BitVec 8)
  /-- WAITVIS: the full counter is not zero (R261). -/
  | fullCounter
  /-- WFE: the event latch is clear, and the timeout has not passed (R99). -/
  | event (timeout : BitVec 32)
  /-- MWAIT: the stream is not complete (R151). -/
  | matrixStream (st : BitVec 2)
  /-- The stream's queue is full with a held operation at its head (R131). -/
  | matrixQueue (st : BitVec 2)
  /-- SQWAIT: the query is not complete (R333). -/
  | query (qh : BitVec 4)
  /-- GBAR or PHASE: the episode of the group is not complete (R224, R269). -/
  | group (g : BitVec 8)
  /-- A write of this context is held by a migration window (R208). -/
  | migration
  /-- A condition that a fault of its stream has cleared (R197). -/
  | cleared
  deriving DecidableEq, Repr

/-- What a context is doing (R97); stalling is found at each evaluation. -/
inductive RunState where
  | idle
  | ready
  | parked (conds : List ParkCond)
  | fetchWait (block : Nat)
  deriving DecidableEq, Repr

/-- An operation held after an engine-discovered fault (R343). -/
inductive HeldOp where
  | fill (sn : SReg) (slot : Nat)
  | drain (sn : SReg) (slot : Nat)
  | matrix (st : BitVec 2)
  | copy (die : BitVec 3) (ch : BitVec 6)
  | gather (id : Nat)
  | scatter (id : Nat)
  | stash (id : Nat)
  | probe (slot : Nat)
  | commit (va : Nat)
  | amog (num : Nat)
  | chsend (ch : BitVec 8) (q : Nat)
  | query (qh : BitVec 4)
  | sginst (id : Nat)
  deriving DecidableEq, Repr

/-- What a trap records: the cause, the faulting address and SR_EINFO (R339, R340). -/
structure TrapInfo where
  code : Nat
  eaddr : Word := 0
  einfo : Word := 0
  deriving DecidableEq, Repr

/-- An engine-discovered fault that its context has not taken (R341). -/
structure PendFault where
  info : TrapInfo
  srce : Nat
  held : Option HeldOp
  /-- The clk of its discovery. -/
  clk : Nat
  deriving DecidableEq, Repr

/-- A binding of a stream register (R188 to R197). -/
structure Stream where
  bound : Bool := false
  /-- 0 IN, 1 OUT, 2 OLIST. -/
  kind : Nat := 0
  gbase : Nat := 0
  s0 : Int := 0
  s1 : Int := 0
  s2 : Int := 0
  s3 : Int := 0
  n0 : Nat := 0
  n1 : Nat := 0
  n2 : Nat := 0
  n3 : Nat := 0
  brow : Nat := 0
  ns : Nat := 0
  len : Nat := 0
  /-- Pattern slots consumed (IN) or advanced (OUT, OLIST). -/
  pos : Nat := 0
  /-- Head or tail slot of the buffer. -/
  tail : Nat := 0
  /-- Filled pattern slots from `pos` up. -/
  filled : List Nat := []
  /-- Pattern slots whose row the storer has read (OUT, OLIST). -/
  drained : Nat := 0
  /-- Outlier element base and records in the tail row (R113, R193). -/
  eb : Nat := 0
  recs : Nat := 0
  /-- The slots of partial rows handed to the storer, each with its record bytes (R196). -/
  part : List (Nat × Nat) := []
  /-- A transfer of this pattern slot is held after a fault (R197). -/
  held : Option Nat := none
  /-- The pattern slot of a held fill that system software replays, which goes before every later one (R197). -/
  again : Option Nat := none
  /-- Advanced slots not drained, each with the writes into its row that had issued before it was advanced and not been
  performed, by context and number (R192). -/
  due : List (Nat × List (BitVec 14 × Nat)) := []
  /-- Of these, the slots into which every such write has been performed, each with the clk of the last (R192). -/
  elig : List (Nat × Nat) := []
  /-- A stop token stands after the last filled slot, and the loader is stopped (R278). -/
  token : Bool := false
  deriving DecidableEq, Repr

/-- An optimiser output not yet written (R126): its number among the accesses of its context, the stream, the
place of the row, and the bytes. -/
structure OptOut where
  num : Nat
  sn : SReg
  core : Nat
  row : Nat
  mask : Row256
  data : Row
  deriving DecidableEq, Repr

/-- What an access to a row of another core of a fused cluster does when it takes effect (R176). -/
inductive FusedKind where
  /-- LDS of the 8-byte field from byte `lo`. -/
  | field (rd : XReg) (lo : Nat)
  | load (vd : VReg)
  | store (mask : Row256) (data : Row)
  | atomic (op : AmoOp) (w64 : Bool) (vd : VReg) (va vc : Row) (mask : Word) (nr : Bool)
  deriving DecidableEq, Repr

/-- A fused access that has issued and has not taken effect (R176): its number among the accesses of its context, and
the place of the row. -/
structure FusedOp where
  num : Nat
  core : Nat
  row : Nat
  kind : FusedKind
  deriving DecidableEq, Repr

/-- The state of a probe slot (R211). -/
inductive ProbeState where
  | invalid | filling | valid
  deriving DecidableEq, Repr

/-- What a probe fill took when it left the core (R202, R222; DEDUCED, log 57): the page-table entry, and the committed
value of the block with NOTLIVE, none where its read met an uncorrectable error. -/
structure ProbeFill where
  pte : Nat
  data : Option (Row × Bool)
  deriving DecidableEq, Repr

/-- A probe slot (R211). -/
structure ProbeSlot where
  tag : Nat := 0
  st : ProbeState := .invalid
  /-- One bit for each byte of the row. -/
  dirty : Row256 := 0
  c : Bool := false
  notlive : Bool := false
  /-- The fill under way; none where no table entry maps its page. -/
  fill : Option ProbeFill := none
  /-- The fill faulted and is held (R218). -/
  held : Bool := false
  deriving DecidableEq, Repr

/-- A probe set (R210); `order` lists the ranked slots, the most recent first (R215). -/
structure ProbeSet where
  srow : Nat := 0
  nslot : Nat := 0
  slots : Tab ProbeSlot := []
  order : List Nat := []
  deriving DecidableEq, Repr

/-- The bytes of a staged block that belong to one release (R220, R221). -/
structure StagedPart where
  epoch : Nat
  mask : Row256
  data : Row
  deriving DecidableEq, Repr

/-- A block staged at the memory agent of a physical block (R220), by releases in rising order. `va` is the virtual block
that the last write was made through. -/
structure Staged where
  blk : Nat
  va : Nat
  parts : List StagedPart
  deriving DecidableEq, Repr

/-- Why a writeback is not staged. -/
inductive UnstagedWhy where
  /-- The context holds 1,024 staged blocks (R220). -/
  | room
  /-- Its page is in a migration window (R208). -/
  | window
  /-- Its translation faulted, and it is held (R203). -/
  | fault
  /-- The row of its slot, at this core and local row, holds an uncorrectable error, and it is held (R175, R203). -/
  | row (core row : Nat)
  deriving DecidableEq, Repr

/-- A writeback that is not staged (R203, R208, R217, R220). -/
structure Unstaged where
  va : Nat
  mask : Row256
  data : Row
  epoch : Nat
  why : UnstagedWhy
  deriving DecidableEq, Repr

/-- A block read ahead of a fill (R222): the physical block, the virtual one, what the read found with NOTLIVE, and how
many transfer records had completed (R229, R243). -/
structure Sample where
  blk : Nat
  va : Nat
  row : Row
  notlive : Bool
  seen : Nat
  deriving DecidableEq, Repr

/-- A recorded AMOG (R227); `held` after its commit faulted. -/
structure Amog where
  /-- Its number among the accesses of its context. -/
  num : Nat
  ea : Nat
  op : AmogOp
  w64 : Bool
  val : Nat
  epoch : Nat
  held : Bool
  deriving DecidableEq, Repr

/-- What a release point is for (R221). -/
inductive RelKind where
  | phase (g : BitVec 8)
  | tdone
  | ctxsave
  | chsend (id : Nat)
  | coll (slot : Nat)
  | stash (id : Nat)
  deriving DecidableEq, Repr

/-- A release in progress (R221): a full one, or the byte range of a partial one, and what its step 2 waits for. -/
structure Release where
  kind : RelKind
  ranges : List (Nat × Nat)
  epoch : Nat
  /-- Stream and the pattern slots below which its drains must be staged. -/
  drains : List (SReg × Nat)
  /-- Copies, gathers and scatters that must have completed, by start number. -/
  copies : List Nat
  deriving DecidableEq, Repr

/-- A chunk that a context holds (R263): the task and its entry in the job control block. -/
structure Chunk where
  entry : Nat
  first : Nat
  last : Nat
  deriving DecidableEq, Repr

/-- A chunk dealt to an idle context, whose share has not started (R264, R383). With a bad card no chunk is open, and
`bad` is SR_EADDR of the fault (R262). -/
structure Deal where
  task : Nat
  entry : Nat
  first : Nat
  last : Nat
  fuse : Bool
  bad : Option Nat
  /-- IDENT and COUNT of the task's dictionary; none where it is rejected (R28, R30). -/
  dict : Option (Nat × Nat)
  /-- The context is the first that is dealt the task (R28). -/
  isFirst : Bool
  deriving DecidableEq, Repr

/-- The share of a context and SR_TASK, SR_TAG (R257, R265). -/
structure Share where
  held : Bool := false
  task : Nat := 0
  early : Bool := false
  fuse : Bool := false
  abf : Bool := false
  tag : BitVec 32 := 0
  /-- The abort entry has been taken for this instance (R272). -/
  aborted : Bool := false
  chunk : Option Chunk := none
  /-- FIRST of the last chunk dealt (R272). -/
  first : Nat := 0
  deal : Option Deal := none
  /-- TDONE has issued and its release is not complete (R267). -/
  ending : Bool := false
  deriving DecidableEq, Repr

/-- SR_BUDGET (R257, R277): REMAIN at clk `at_`, whether it counts, and OFF. -/
structure Budget where
  remain : Nat := 0
  since : Nat := 0
  counting : Bool := false
  off : Bool := true
  deriving DecidableEq, Repr

/-- The STOP sequence of a context (R278, R349). -/
inductive StopState where
  | none | requested | running | trapped
  deriving DecidableEq, Repr

/-- A CTXSAVE in progress (R346): the step reached, and the page-table entries found at issue. -/
structure Save where
  ea : Nat
  /-- The clk of its issue. -/
  at_ : Nat
  step : Nat
  pages : List Nat
  /-- The deadline that DL set (R361). -/
  deadline : Option Nat
  deriving DecidableEq, Repr

/-- A collective descriptor (R299), and the issuing context's ring. OP is 0 all-reduce, 1 reduce-scatter, 2 all-gather. -/
structure CollDesc where
  src : Nat
  dst : Nat
  count : Nat
  op : Nat
  shard : Bool
  ty : ETy
  e : Int
  ring : BitVec 2
  seq : BitVec 32
  deriving DecidableEq, Repr

/-- A collective slot of a context (R298, R304): STATE 0 to 3, its descriptor, the ranges of its named buffers that the
operation reads and writes (R299), and the status word once it has ended. `begun`: the collective has started. -/
structure CollSlot where
  st : Nat := 0
  desc : Option CollDesc := none
  ranges : List (Nat × Nat) := []
  begun : Bool := false
  status : Word := 0
  deriving DecidableEq, Repr

/-- The counts and bits that RSTAT reads (R310). -/
structure RouteStat where
  busy : Bool := false
  done : Bool := false
  err : Bool := false
  first : Nat := 0
  second : Nat := 0
  dropped : Nat := 0
  sent : Tab Nat := []
  deriving DecidableEq, Repr

/-- An entry granted by a destination and not yet acknowledged (R308): the destination index, the local expert, the
entry's number and rows. -/
structure RouteEntry where
  id : Nat
  d : Nat
  x : Nat
  c : Nat
  data : List Byte
  deriving DecidableEq, Repr

/-- Where a ROUTE stands with its next reservation (R308, R381). -/
inductive RoutePhase where
  /-- To be made. -/
  | ask
  /-- Answered: the entry's number where it was granted. -/
  | answered (grant : Option Nat)
  /-- Sent to another module. -/
  | away
  /-- Every token is placed or dropped. -/
  | ended
  deriving DecidableEq, Repr

/-- A ROUTE in progress (R306 to R309): its descriptor, tokens (E0, E1, G0, G1), expert map (D, LX) and destinations
(module, task), as read at issue. -/
structure RouteJob where
  /-- Its number, which its messages bear. -/
  num : Nat
  tr : Nat
  trow : Nat
  lrow : Nat
  lrpd : Nat
  seqb : Nat
  toks : List (Nat × Nat × Nat × Nat)
  map : List (Nat × Nat)
  dests : List (Nat × Nat)
  tok : Nat
  rank : Nat
  phase : RoutePhase
  entries : List RouteEntry
  /-- Entries appended so far, destinations whose decrement has been sent or found undeliverable, and of these those whose
  acknowledgement is awaited (R309, R381). -/
  granted : Nat
  decd : List Nat
  waits : List Nat
  deriving DecidableEq, Repr

/-- The arrival of a bundle at a barrier (R224, R269): the group, the PCb, and whether the episode is complete. -/
structure Arrival where
  g : BitVec 8
  pcb : BitVec 55
  passed : Bool
  deriving DecidableEq, Repr

/-- A hardware context (R13). -/
structure Ctx where
  regs : RegFile := {}
  /-- Descriptor registers d0 to d7 (R133). -/
  d : Tab (BitVec 128) := []
  /-- In code words (R22). -/
  pc : BitVec 55 := 0
  /-- SR_MODE.SYS (R96). -/
  sys : Bool := true
  /-- The event latch EVT (R99). -/
  evt : Bool := false
  stat : StatRegs := {}
  tr : TrapRegs := {}
  run : RunState := .idle
  /-- The block that the fetch wait brought faulted: its byte address and the cause (R24, R91). -/
  fetchFault : Option (Nat × Nat) := none
  /-- Scalar and vector registers that wait for a reply (R42). -/
  xwait : List XReg := []
  vwait : List VReg := []
  /-- The bundle of a WFE that has parked in user mode and in system mode: its PCb and the clk of its first park
  (R99). -/
  wfe : Option (BitVec 55 × Nat) := none
  wfeSys : Option (BitVec 55 × Nat) := none
  /-- Blocks of code that the context has last issued from, the latest first (R90). -/
  recent : List Nat := []
  /-- Accesses to scratchpad rows and messages numbered so far; fused accesses and optimiser outputs that have not taken
  effect, in issue order (R126, R176, R185). -/
  acc : Nat := 0
  fused : List FusedOp := []
  outs : List OptOut := []
  /-- The flags that M operations have set on a clk (R69). -/
  late : Nat × Word := (0, 0)
  /-- The context has woken from a park and has not been evaluated since (R272). -/
  waking : Bool := false
  /-- The user window: IDENT and DADDR (R29, R346). -/
  window : Option (Nat × Nat) := none
  streams : Tab Stream := []
  probe : ProbeSet := {}
  staged : List Staged := []
  unstaged : List Unstaged := []
  amogs : List Amog := []
  epoch : Nat := 0
  releases : List Release := []
  /-- Blocks read for a fill not yet made (R222). -/
  samples : List Sample := []
  held : Option HeldOp := none
  pend : List PendFault := []
  overrun : Bool := false
  stopTrap : Bool := false
  stop : StopState := .none
  share : Share := {}
  budget : Budget := {}
  /-- The arrivals of its bundle in user mode and in system mode at a barrier (R269). -/
  arrived : Option Arrival := none
  arrivedSys : Option Arrival := none
  save : Option Save := none
  /-- CTXLOAD has loaded the context, and no ERET to user mode has followed (R347). -/
  loaded : Bool := false
  /-- Replies on their way to scalar registers (R256). -/
  replies : List (XReg × Word) := []
  colls : Tab CollSlot := []
  /-- Query handles: 0 FREE, 1 PENDING, 2 DONE; and bytes 7:0 of the result records of DONE ones (R321, R333). -/
  qh : Tab Nat := []
  qres : Tab (Option Word) := []
  route : RouteStat := {}
  job : Option RouteJob := none
  deriving DecidableEq, Repr

/-! ## The matrix array (R129, R153, R156) -/

/-- One over FP32. -/
def one32 : Nat := 0x3F800000

/-- A set of a plane in weight mode (R129): the cells at 32k + n, XW(n, b) at n + 32b, sw in FP32, and the 2:4 metadata
of a sparse set. LQ2 weights are held as BF16 (R138). -/
structure WeightSet where
  fmt : ETy := .bf16
  sparse : Bool := false
  cells : Tab Nat := []
  xw : Tab Nat := []
  sw : Nat := one32
  groups : Row := 0
  deriving DecidableEq, Repr

/-- A plane (R129, R156): its sets in weight mode; in spline mode slot s of cell (k, n) at 16(32k + n) + s, in BF16. -/
structure Plane where
  spline : Bool := false
  sets : Tab WeightSet := []
  slots : Tab Nat := []
  deriving DecidableEq, Repr

/-- A tile (R129): t(r, n) at 32r + n, sa(r) and sb(r), in FP32. -/
structure Tile where
  t : Tab Nat := []
  sa : Tab Nat := []
  sb : Tab Nat := []
  deriving DecidableEq, Repr

/-- An operation of a stream queue (R131): what it captured at issue, and the active plane once it has started. -/
structure MatOp where
  id : Nat
  key : CtxKey
  instr : Instr
  da : BitVec 128 := 0
  dg : BitVec 128 := 0
  xs : Word := 0
  vi : Row := 0
  seed : Word := 0
  ctr : Word := 0
  started : Option Nat := none
  held : Bool := false
  /-- The grid row that MKNOT checked at its start (R164). -/
  latch : Row := 0
  deriving DecidableEq, Repr

/-- The array of a core (R129, R153, R156, R161). -/
structure ArrayState where
  planes : Tab Plane := []
  act : Nat := 0
  tiles : Tab Tile := []
  codebook : Tab Nat := []
  grad : Tab Nat := []
  kn : Tab Nat := []
  knctl : Word := 0
  /-- LOW, HIGH and NAN, at 0, 1 and 2. -/
  counters : Tab Nat := []
  queues : Tab (List MatOp) := []
  /-- Operations issued. -/
  issued : Nat := 0
  deriving DecidableEq, Repr

/-! ## Cores -/

/-- A block of the code buffer (R24): its number VA / 256 and contents. -/
structure CodeBlock where
  block : Nat
  data : Row
  deriving DecidableEq, Repr

/-- A window of the dictionary store (R29). -/
structure Window where
  ident : Nat
  entries : List (BitVec 384)
  deriving DecidableEq, Repr

/-- The state of a buffer handle (R230). -/
inductive HState where
  | free | filling | full | draining
  deriving DecidableEq, Repr

/-- A buffer handle (R230, R231). -/
structure Handle where
  st : HState := .free
  brow : Nat := 0
  nrows : Nat := 0
  status : Word := 0
  deriving DecidableEq, Repr

/-- What a remote message does at its destination (R183, R100). -/
inductive MsgKind where
  | load (vd : VReg) (ea : Nat)
  | store (ea : Nat) (mask : Word) (data : Row) (rel : Bool)
  | atomic (op : AmoOp) (w64 : Bool) (vd : VReg) (ea : Nat) (va vc : Row) (mask : Word) (nr : Bool)
  | sev (mask : BitVec 4)
  deriving DecidableEq, Repr

/-- A message of a core that awaits its effect, or, once `reply` is set, its reply or acknowledgement. -/
structure Msg where
  /-- Its number among the accesses of its context. -/
  num : Nat := 0
  key : CtxKey
  dst : CoreNo
  kind : MsgKind
  acq : Bool
  /-- Its effect has taken place: the row that the reply carries, if any. -/
  reply : Option (Option Row)
  deriving DecidableEq, Repr

/-- A gather or scatter in progress (R244). `rows`: what a scatter has read and not staged, lane by lane from `lane` up,
its handle being FREE since. -/
structure Gather where
  key : CtxKey
  h : BitVec 6
  scatter : Bool
  addrs : List Nat
  id : Nat
  lane : Nat := 0
  rows : Option (List Row) := none
  held : Bool
  deriving DecidableEq, Repr

/-- A core. -/
structure Core where
  /-- The current context; none while no context is ready (R97). -/
  cur : Option (BitVec 2) := none
  /-- The reference context (R97). -/
  ref : BitVec 2 := 3
  /-- The clk at which a wake made `cur` current, until it issues (R97). -/
  woke : Option Nat := none
  /-- The clk of the last park, the context that parked and the reference context before it (R99). -/
  was : Option (Nat × BitVec 2 × BitVec 2) := none
  /-- The clk and the context of the last evaluation (R333). -/
  evaled : Option (Nat × BitVec 2) := none
  /-- The clk of the last row that the storer read (R192). -/
  drainClk : Option Nat := none
  /-- The earliest clk of the next issue (R13, R90). -/
  nextIssue : Nat := 0
  /-- The number of the present 64 clk, and the clk of them on which the core has issued (R356). -/
  paced : Nat × Nat := (0, 0)
  code : List CodeBlock := []
  dict : List Window := []
  handles : Tab Handle := []
  msgs : List Msg := []
  gathers : List Gather := []
  array : ArrayState := {}
  deriving DecidableEq, Repr

/-! ## Dies -/

/-- The state of a task slot (R255). -/
inductive TaskState where
  | free | waiting | early | ready | running
  deriving DecidableEq, Repr

/-- The limits and addresses of a job card (R262). -/
structure Card where
  entry : Nat
  dict : Nat
  args : Nat
  rsize : Nat
  count : Nat
  minch : Nat
  cpr : Nat
  ovh : Nat
  abent : Nat
  jcb : Nat
  mode : Nat
  jslots : Nat
  deriving DecidableEq, Repr

/-- A chunk entry of a job control block, as the dispatcher keeps it (R263). -/
structure JEntry where
  idx : Nat
  first : Nat
  last : Nat
  cursor : Nat
  /-- The context that holds the chunk; none after CTXSAVE (R279). -/
  owner : Option CtxKey
  deriving DecidableEq, Repr

/-- A slot of a task table (R253 to R255; DEDUCED, log 20). -/
structure Task where
  st : TaskState := .free
  gen : BitVec 16 := 1
  rank : Nat := 0
  group : BitVec 8 := 0
  fuse : Bool := false
  full : Nat := 0
  earlyc : Nat := 0
  card : Nat := 0
  tag : BitVec 32 := 0
  budget : Nat := 0
  succ : List (BitVec 32) := []
  /-- The early decrements of the successors are made (R260). -/
  earlyMade : Bool := false
  abort : Bool := false
  /-- While RUNNING: the card, NEXT, DONEC, the open entries and how many shares are held. -/
  job : Option Card := none
  next : Nat := 0
  donec : Nat := 0
  open_ : List JEntry := []
  shares : Nat := 0
  /-- The clk of its start (R264). -/
  started : Nat := 0
  /-- A first chunk has been dealt (R264); the card is bad and its fault is due, with SR_EADDR (R262). -/
  dealt : Bool := false
  /-- No context has been dealt the task since it started, freshly or as a resumption (R28). -/
  undealt : Bool := false
  bad : Option Nat := none
  /-- The member contexts of its group, as read at its start (R258, R354). -/
  mem : List CtxKey := []
  /-- Entries still to be dealt again on a resumption (R280). -/
  resume : Bool := false
  /-- The Clasp stage that armed the instance (R283). -/
  stage : Option (BitVec 3) := none
  deriving DecidableEq, Repr

/-- An arming request on its way to a dispatcher (R258, R274). -/
structure ArmReq where
  /-- The context and register that the reply goes to. -/
  reply : Option (CtxKey × XReg)
  record : List Byte
  deriving DecidableEq, Repr

/-- A decrement on its way to a dispatcher (R259): `src` names the context, or from 2^14 up another sender, whose
decrements stay in order; a successor entry matches 15 bits of GEN (R254). -/
structure DecMsg where
  src : Nat
  id : Nat
  low : Bool
  early : Bool
  n : Nat
  /-- The acknowledgement that a ROUTE awaits (R381): its module, context, number and destination. -/
  ack : Option (BitVec 12 × CtxKey × Nat × Nat) := none
  deriving DecidableEq, Repr

/-- The state of a copy channel (R236). -/
inductive ChState where
  | idle | walking | waiting | held
  deriving DecidableEq, Repr

/-- A transfer record being performed (R238): its fields and the next piece. -/
structure CopyRec where
  next : Nat
  src : Nat
  dst : Nat
  len : Nat
  count : Nat
  sstr : Int
  dstr : Int
  decomp : Bool
  handle : Option (BitVec 6)
  piece : Nat
  notlive : Bool
  /-- Its handle has been taken, or it names none (R240). -/
  got : Bool
  deriving DecidableEq, Repr

/-- A copy channel (R236). -/
structure CopyChan where
  st : ChState := .idle
  addr : Nat := 0
  owner : CtxKey := 0
  /-- Start number of the chain, for releases that wait for it (R221). -/
  id : Nat := 0
  /-- Start number of the chain that a resumption goes on with (R237, R243). -/
  chain : Nat := 0
  cur : Option CopyRec := none
  deriving DecidableEq, Repr

/-- A compute die. -/
structure Die where
  tasks : Tab Task := []
  /-- The ready queues by rank (R276). -/
  ready : Tab (List Nat) := []
  /-- RUNNING slots, the earliest started first (R264). -/
  running : List Nat := []
  period : Word := 0
  /-- The clk at which the arbiter last picked, and of the last point whose event was raised (R276). -/
  acted : Option Nat := none
  point : Option Nat := none
  arms : List ArmReq := []
  decs : List DecMsg := []
  aborts : List Nat := []
  chans : Tab CopyChan := []
  /-- What came of the bring-up since the last reset: up, or left down (R338). -/
  boot : Option Bool := none
  /-- The system dictionary that each core of the die holds since its bring-up (R338). -/
  sysDict : List (BitVec 384) := []
  deriving DecidableEq, Repr

/-! ## Memories -/

/-- The state of a pseudo-channel (R206). -/
inductive PcState where
  | normal | degraded | rebuilding | retired
  deriving DecidableEq, Repr

/-- A stack's channels (R206, R207): channels that are rebuilt, in order, the first under way with the blocks moved so
far, and channels retired in order. -/
structure StackState where
  chan : Tab PcState := []
  rebuild : List Nat := []
  moved : Nat := 0
  retired : List Nat := []
  deriving DecidableEq, Repr

/-- Global memory by physical key: stack n from n x 2^36, LPDDR-6 from 2^39 (R198, R200, R209). -/
structure Dram where
  bytes : Memory := []
  /-- Dead 256-byte blocks of HBM4E, by key / 256 (R209). -/
  dead : Tab Bool := []
  /-- Blocks that hold an uncorrectable error, by key / 256 (R203, DESIGN CHOICE, log 5). -/
  err : Tab Bool := []
  hbm : Tab StackState := []
  /-- The LOSSLESS images that Locket has stored, by key / 256 of their first block, with what each holds (R242, R249,
  DESIGN CHOICE, log 13). -/
  images : List (Nat × List Byte) := []
  deriving DecidableEq, Repr

/-- The scratchpads: core x 0x60000 + byte (R173, R175). -/
structure Spad where
  bytes : Memory := []
  /-- 16-byte bank lines that hold an uncorrectable error, by key / 16 (R175, DESIGN CHOICE, log 5). -/
  err : Tab Bool := []
  /-- Fused clusters, and the kind and clk of the last share that ended in a cluster which holds none since (R174). -/
  fused : Tab Bool := []
  lastEnd : Tab (Option (Bool × Nat)) := []
  deriving DecidableEq, Repr

/-! ## The module -/

/-- A launch queue (R273, R353). STATE is 0 RUN, 1 HELD, 2 OVERRUN, 3 STOPPED. -/
structure LaunchQ where
  base : Nat := 0
  size : Nat := 16
  wp : BitVec 32 := 0
  rp : BitVec 32 := 0
  st : Nat := 3
  /-- NEED of the head packet once it has held the queue; 0 for a head that has not. -/
  need : BitVec 32 := 0
  why : BitVec 32 := 0
  errc : Nat := 0
  deriving DecidableEq, Repr

/-- One end of a tensor channel (R291, R292, R296): the record's words, and the values kept at its core. -/
structure ChanEnd where
  w0 : Word := 0
  w1 : Word := 0
  w2 : Word := 0
  win : Nat := 0
  seq : BitVec 32 := 0
  pend : Nat := 0
  outst : Nat := 0
  next : Nat := 0
  rseq : BitVec 32 := 0
  /-- Rows written so far of the payload for which the handle of NEXT is FILLING (R294). -/
  fill : Option Nat := none
  /-- The send end refuses CHSEND after a discard (R343). -/
  broken : Bool := false
  deriving DecidableEq, Repr

/-- A CHSEND whose payload has not left (R293): its source, and the payload once it has been read. -/
structure ChSend where
  id : Nat
  key : CtxKey
  ch : BitVec 8
  q : BitVec 32
  tag : BitVec 32
  spad : Bool
  addr : Nat
  len : Nat
  data : Option (List Byte)
  held : Bool
  deriving DecidableEq, Repr

/-- A message between modules (R288), `src` its source module. A message of a ROUTE bears the number of its job, and an
entry the task of its destination (DEDUCED, log 31). -/
inductive LinkMsg where
  | payload (src : BitVec 12) (sch ch : BitVec 8) (q tag : BitVec 32) (data : List Byte)
  | grant (src : BitVec 12) (sch ch : BitVec 8) (n : Nat)
  /-- A member's COLL on a ring (R299, R300). -/
  | member (ring : BitVec 2) (rank : Nat) (desc : CollDesc)
  /-- The bytes of a member's SRC for a collective that has started (R300). -/
  | contrib (ring : BitVec 2) (rank : Nat) (seq : BitVec 32) (data : List Byte)
  /-- The end of a collective with STATE 3 at a member (R300, R304). -/
  | collErr (ring : BitVec 2) (seq : BitVec 32) (code : Nat)
  | reserve (src : BitVec 12) (k : CtxKey) (num x rows : Nat)
  | answer (k : CtxKey) (num : Nat) (grant : Option Nat)
  | entry (src : BitVec 12) (k : CtxKey) (num id x c task : Nat) (data : List Byte)
  | entryAck (k : CtxKey) (num id : Nat) (err : Bool)
  | peer (src : BitVec 12) (k : CtxKey) (xd : XReg) (q : BitVec 6) (packet : List Byte)
  | peerAck (k : CtxKey) (xd : XReg) (v : BitVec 2)
  | dec (src : BitVec 12) (k : CtxKey) (num d task : Nat)
  | decAck (k : CtxKey) (num d : Nat)
  deriving DecidableEq, Repr

/-- A message handed to the links for another module, the CHSEND that sent it (R297), and the Bangle port by which it
leaves; none for the torus. -/
structure OutMsg where
  dst : BitVec 12
  msg : LinkMsg
  send : Option ChSend
  via : Option Nat := none
  deriving DecidableEq, Repr

/-- A Bangle ring (R298, R352): the entry's words, the next expected SEQ, the other members' COLLs by rank, the members'
contributions by rank and SEQ, and the collectives that end in error at this member, by SEQ and CODE. -/
structure Ring where
  w0 : Word := 0
  w1 : Word := 0
  w2 : Word := 0
  next : BitVec 32 := 0
  members : List (Nat × CollDesc) := []
  data : List (Nat × BitVec 32 × List Byte) := []
  errs : List (BitVec 32 × Nat) := []
  deriving DecidableEq, Repr

/-- A local expert (R305). -/
structure Expert where
  rbase : Nat := 0
  cap : Nat := 0
  erows : Nat := 0
  count : Nat := 0
  deriving DecidableEq, Repr

/-- A region of an installed graph (R312, R315): first index, records, physical key and virtual address. -/
structure Region where
  first : Nat
  nrec : Nat
  key : Nat
  va : Nat
  deriving DecidableEq, Repr

/-- An entry of the graph table (R312, R314); `rm` is the reply of a removal that the units have received (R319). -/
structure Graph where
  dim : Nat
  ty : ETy
  metric : Nat
  maxdeg : Nat
  stride : Nat
  /-- Regions of each stack that holds nodes. -/
  parts : List (Nat × List Region)
  rm : Option (CtxKey × XReg)
  deriving DecidableEq, Repr

/-- An SGINST on its way to the units (R317): the descriptor row. -/
structure GraphReq where
  id : Nat
  key : CtxKey
  xd : XReg
  row : Row
  held : Bool
  deriving DecidableEq, Repr

/-- A removal on its way to the units (R319). -/
structure GraphRm where
  key : CtxKey
  xd : XReg
  g : Nat
  deriving DecidableEq, Repr

/-- An entry of the candidate heap (R326): distance in FP32, id, and whether it is expanded. -/
structure Cand where
  d : Nat
  node : Nat
  expanded : Bool
  deriving DecidableEq, Repr

/-- A search query (R320 to R332). -/
structure Query where
  id : Nat
  key : CtxKey
  qh : Nat
  home : Nat
  /-- The graph; none where it was not installed. -/
  graph : Option Nat
  w : Nat
  l : Nat
  k : Nat
  v : Nat
  maxr : Nat
  seq : Nat
  rrow : Nat
  qrow : Nat
  eps : List Nat
  running : Bool
  cancel : Bool
  held : Bool
  /-- Its die was reset, so that it writes no result rows (R360). -/
  mute : Bool
  vec : List Nat
  heap : List Cand
  /-- VIS, with the neighbours of each node. -/
  vis : List (Nat × List Nat)
  rounds : Nat
  dc : Nat
  flags : Nat
  /-- The result record, once the search has ended. -/
  res : Option (List Byte)
  deriving DecidableEq, Repr

/-- A packet on its way to a peer queue of this module (R275). -/
structure PeerPacket where
  /-- The context and register that the acknowledgement goes to, on module `src`. -/
  key : CtxKey
  xd : XReg
  src : BitVec 12
  q : BitVec 6
  packet : List Byte
  deriving DecidableEq, Repr

/-- A barrier episode (R269): its participants, who has arrived, and a context for each PHASE release still open. -/
structure Episode where
  parts : List CtxKey
  arrived : List CtxKey
  releasing : List CtxKey
  deriving DecidableEq, Repr

/-- A STOP on its way to its target context (R349): the context and register that the reply goes to. -/
structure StopReq where
  key : CtxKey
  xd : XReg
  target : CtxKey
  deriving DecidableEq, Repr

/-- A request for the data rate of a stack (R361): deferred with the saves that it waits for, by context and clk of issue,
and their latest deadline, or under way until a clk; with the clk of the request and the rate before it. -/
inductive RateState where
  | idle
  | deferred (saves : List (CtxKey × Nat)) (deadline since old : Nat)
  | retraining (until_ since old : Nat)
  deriving DecidableEq, Repr

/-- What made a write that a migration window holds (R208), with the context on whose behalf it was made. -/
inductive WriteSrc where
  /-- The commits of a release. -/
  | commit (k : CtxKey) (epoch : Nat)
  | writeback (k : CtxKey)
  | drain (k : CtxKey) (sn : SReg)
  | copy (k : CtxKey) (die : Nat) (ch : BitVec 6)
  | scatter (k : CtxKey) (id : Nat)
  | amog (k : CtxKey) (num : Nat)
  /-- The DST writes of a collective of a slot (R300). -/
  | coll (k : CtxKey) (slot : Nat)
  /-- A write of the dispatcher of a die into a control block, slot k (R262, R263): its address and bytes. -/
  | jcb (die k va : Nat) (bs : List Byte)
  /-- An entry of a ROUTE from a module (R308). -/
  | entry (src : BitVec 12) (k : CtxKey) (num id : Nat)
  /-- The first packet of a module for a peer queue (R275). -/
  | peer (src : BitVec 12)
  /-- A host write through BAR2 (R355). -/
  | host
  deriving DecidableEq, Repr

/-- A write held by a migration window, and its page (R208). -/
structure HeldWrite where
  src : WriteSrc
  page : Nat
  deriving DecidableEq, Repr

/-- A host access through BAR2 (R350, R355). -/
inductive Bar2Req where
  | read (va len : Nat)
  | write (va : Nat) (data : List Byte)
  deriving DecidableEq, Repr

/-- The completion of a host read (R355). -/
inductive Bar2Reply where
  | data (bs : List Byte)
  | unsupported
  | abort
  deriving DecidableEq, Repr

/-- The SPDM requests that the module answers (R358). -/
inductive SpdmReq where
  | getVersion | getCapabilities | negotiateAlgorithms | getDigests | getCertificate | challenge | getMeasurements
  deriving DecidableEq, Repr

/-- An answer to an SPDM request: the measurement slots for GET_MEASUREMENTS, and the body (PRESUMED, log 17). -/
structure SpdmReply where
  req : SpdmReq
  slots : List (BitVec 384)
  body : List Byte
  deriving DecidableEq, Repr

/-- The state of a weight version (R285). -/
inductive VerState where
  | free | alloc | current | held
  deriving DecidableEq, Repr

/-- A virtual stage of Clasp (R281 to R285). -/
structure ClaspStage where
  cfg : Tab Word := []
  /-- The queues F, B, W, U, E: tags with their clk of arrival, the oldest first. -/
  queues : Tab (List (Nat × Nat)) := []
  overflow : Bool := false
  inflight : List (Nat × Nat) := []
  vers : Tab VerState := [(0, .current)]
  users : Tab Nat := []
  curv : Nat := 0
  held : Bool := false
  /-- Instances armed and not yet DONE or ABORTED. -/
  insts : Nat := 0
  /-- The clk of the last evaluation (R283). -/
  last : Option Nat := none
  deriving DecidableEq, Repr

/-- A request on its way to Clasp (R256). -/
inductive ClaspOp where
  | post (q : ClaspQ) (tag : Nat)
  | verget (tag : Nat)
  | rel (tag : Nat)
  | pub (v : Nat)
  | alloc
  deriving DecidableEq, Repr

/-- A request of a context on a Clasp stage. -/
structure ClaspReq where
  key : CtxKey
  xd : XReg
  stage : BitVec 3
  op : ClaspOp
  deriving DecidableEq, Repr

/-- The state of a stash entry (R248). -/
inductive StashState where
  | storing | compressed | spilled | dropped | prefetching | ready
  deriving DecidableEq, Repr

/-- An entry of Locket's table that is not EMPTY (R245, R248, R251). KIND is 0 LOSSLESS, 1 MX8, 2 spill, 3 none. -/
structure StashEntry where
  tag : Nat
  slot : Nat
  st : StashState
  kind : Nat
  bf16 : Bool
  /-- Offset in units of 256 bytes, SIZE of the image, LEN of the region. -/
  off : Nat
  size : Nat
  len : Nat
  /-- What a LOSSLESS image holds (R249, DESIGN CHOICE, log 13). -/
  data : List Byte
  deriving DecidableEq, Repr

/-- A virtual stage of Locket (R245). -/
structure LocketStage where
  hbase : Word := 0
  hsize : Word := 0
  lbase : Word := 0
  lsize : Word := 0
  entries : List StashEntry := []
  deriving DecidableEq, Repr

/-- The STASH commands (R246); a query bears its destination register. -/
inductive StashKind where
  | c (mx8 dead bf16 : Bool) | s (dead : Bool) | d | p | f | q (xd : XReg)
  deriving DecidableEq, Repr

/-- A STASH command on its way to Locket or received by it (R247). -/
structure StashCmd where
  id : Nat
  key : CtxKey
  h : BitVec 6
  kind : StashKind
  region : Nat
  len : Nat
  tag : Nat
  stage : BitVec 3
  slot : Nat
  held : Bool
  /-- A STASHC or STASHS that is being performed, its entry STORING (R248). -/
  storing : Bool := false
  /-- Once its data work has ended: the status of the handle and the bytes restored (R382). -/
  ret : Option (Word × List Byte)
  deriving DecidableEq, Repr

/-- An event record to system software (R351), and the records dropped since, which the module counts in it. -/
structure EventRec where
  kind : Nat
  source : Nat
  detail : Nat
  cycle : Nat
  dropped : Nat := 0
  deriving DecidableEq, Repr

/-- The torus registers (R352). -/
structure Torus where
  dims : Word := 0x10101
  coord : Word := 0
  porten : Word := 0
  portstat : Word := 0
  cfgerr : Word := 0
  /-- The clk at which a port's training began (R289). -/
  since : Tab Nat := []
  deriving DecidableEq, Repr

/-- The module control registers (R351). -/
structure Control where
  ptroot : Word := 0
  syscode : Word := 0
  sysdict : Word := 0
  savedl : Word := 9400000
  pcap : Word := 1800
  pstat : Word := 0
  evbase : Word := 0
  evctl : Word := 0
  stkrate : Word := 0
  ratestat : Word := 0
  deriving DecidableEq, Repr

/-! ## The schedule -/

/-- What Norlys reads (R359): a temperature by its number, the power, PSTAT and FUNCREADY. -/
inductive NorlysReg where
  | temperature (i : Nat)
  | power
  | pstat
  | funcready
  deriving DecidableEq, Repr

/-- One move of the schedule (DESIGN CHOICE, log 1): a row of the table after `dt` clk, or a part of one. -/
inductive Move where
  | row (dt : Nat) (i : Instr)
  /-- One block of a release is committed (R221). -/
  | commit (k : CtxKey) (blk : Nat)
  /-- A block is read for a later fill of the context (R222). -/
  | sample (k : CtxKey) (va : Nat)
  /-- A translation unit (8 is the IOD) drops an entry (R202). -/
  | tlbEvict (u : Nat) (vpn : Nat)
  /-- A message of another module arrives, or one for another module reaches it (R287). -/
  | arrive (m : LinkMsg)
  | leave (idx : Nat)
  /-- The earliest fused access of a context takes effect (R176). -/
  | fused (k : CtxKey)
  /-- Host accesses that wait behind a migration window are tried again (R355). -/
  | host
  /-- A host read of a BAR0 register (R350). -/
  | barRead (off : Nat)
  /-- The handle of a payload's slot becomes FILLING, or the next row of the payload is written (R294). -/
  | receipt (ch : BitVec 8)
  /-- The earliest route entry of a module that can be committed is (R308, R360). -/
  | entry (src : BitVec 12)
  /-- A cluster becomes ready, or fails (R357). -/
  | cluster (cl : Nat) (up : Bool)
  /-- The boot ROM measures a firmware stage (R358). -/
  | measure (slot : Nat)
  /-- Norlys reads a register (R359). -/
  | norlysRead (r : NorlysReg)
  deriving DecidableEq, Repr

/-- The issue latch (R40): the context, the PCs of R88, and the operands as they stood before any slot wrote
(DESIGN CHOICE, log 3). -/
structure Issue where
  key : CtxKey := 0
  pcb : BitVec 55 := 0
  pcn : BitVec 55 := 0
  slot : SlotId := .A
  regs : RegFile := {}
  heads : Tab Row := []
  stat : StatRegs := {}
  tr : TrapRegs := {}
  evt : Bool := false
  deriving DecidableEq, Repr

/-- The state of the part. -/
structure State where
  /-- clk since release of module reset; SR_CYCLE (R96). -/
  clk : Nat := 0
  agenda : List Move := []
  /-- Free values taken (DESIGN CHOICE, log 2). -/
  fresh : Nat := 0
  iss : Issue := {}
  powered : Bool := true
  dram : Dram := {}
  spad : Spad := {}
  ctxs : Tab Ctx := []
  cores : Tab Core := []
  dies : Tab Die := []
  /-- Cached page-table entries by unit and VPN; 0 is none (R202). -/
  tlb : Tab (Tab Nat) := []
  /-- Writes held by migration windows, in the order of arrival (R208). -/
  migHeld : List HeldWrite := []
  /-- Pages whose migration window is open: it closes when a TLBINV completes that finds another entry (R208). -/
  migOpen : List Nat := []
  /-- Completed transfer records: the start number of the chain, and the block (R229, R243). -/
  recs : List (Nat × Nat) := []
  queues : Tab LaunchQ := []
  acl : Tab Word := []
  peers : List PeerPacket := []
  /-- The ends of tensor channels, their error words (CODE, COUNT), CHSENDs in progress, and messages that have arrived
  and are handed to the links (R291 to R297). -/
  ends : Tab ChanEnd := []
  endErr : Tab (Nat × Nat) := []
  sends : List ChSend := []
  inbox : List LinkMsg := []
  out : List OutMsg := []
  rings : Tab Ring := []
  experts : Tab Expert := []
  /-- The graph table, requests on their way to the units, and queries in the order of their arrival (R312 to R332). -/
  graphs : Tab (Option Graph) := []
  installs : List GraphReq := []
  removals : List GraphRm := []
  searches : List Query := []
  /-- Group g: its bitmap in words 64 x g + i, its CTXMASK (R268, R354). -/
  groupMap : Tab Word := []
  groupMask : Tab (BitVec 4) := []
  episodes : Tab (Option Episode) := []
  clasp : Tab ClaspStage := []
  claspReqs : List ClaspReq := []
  locket : Tab LocketStage := []
  /-- STASH commands sent, in issue order, and those received, in the order of receipt (R247). -/
  stash : List StashCmd := []
  stashRx : List StashCmd := []
  /-- Copy chains, gathers, scatters and STASH commands started. -/
  starts : Nat := 0
  ctl : Control := {}
  torus : Torus := {}
  events : List EventRec := []
  funcready : Word := 0
  /-- The cluster readiness map (R357). -/
  clReady : Tab Bool := []
  stops : List StopReq := []
  /-- The rate requests of the stacks (R361). -/
  rates : Tab RateState := []
  /-- BAR2 accesses held behind a migration window, and the completions of host reads (R355). -/
  bar2 : List Bar2Req := []
  bar2Done : List Bar2Reply := []
  /-- Host reads of BAR0 registers: offset and value (R7, R350). -/
  bar0Done : List (Nat × Word) := []
  /-- The duty D in 64ths (R356), and the clk of the last update. -/
  duty : Nat := 64
  governed : Option Nat := none
  /-- Measurement slots, the firmware stages measured since reset with their digests, and answers to SPDM requests (R358).
  -/
  measures : Tab (BitVec 384) := []
  measured : List (Nat × BitVec 384) := []
  spdm : List SpdmReply := []
  /-- The controls that Norlys holds (R359). -/
  norlys : List NorlysCtl := []
  /-- Norlys reads: what was read and its value (R359). -/
  norlysDone : List (NorlysReg × Word) := []
  deriving DecidableEq, Repr

/-- Why the machine stops. -/
inductive Fault where
  /-- Raised by step: the 54 V input is absent, so nothing runs (R17). Safe: no effect is claimed. -/
  | noPower
  deriving DecidableEq, Repr

/-- Why a step has no meaning. -/
inductive Refusal where
  /-- Raised by exec for an instruction not modelled. Safe. -/
  | notModelled (mnemonic : String)
  /-- Raised by an event that cannot come about in the state, for example the arrival of a message that nobody
  sent. Safe: the schedule named a step that the part does not take. -/
  | notEnabled
  deriving DecidableEq, Repr

/-- The machine right after module reset: each register at the value of its rule, and zero where the spec gives none
(DESIGN CHOICE, log 6). -/
def State.reset : State := {}

end Sys2Proof.Machine
end

