-- ==== Sys2Proof/Machine/Ops.lean ====
section
/-! DEFINITION. The named operations over State: contexts, cores and dies, taking a trap and returning from one,
parking and waking, translation, global memory, the scratchpads, events. -/

namespace Sys2Proof.Machine

/-! ## Names and numbers -/

/-- The core of a context key (R263). -/
def keyCore (k : CtxKey) : CoreNo := BitVec.ofNat 12 (k.toNat / 4)
/-- The context number of a key within its core. -/
def keyCtx (k : CtxKey) : BitVec 2 := BitVec.ofNat 2 k.toNat
/-- The key of a context of a core. -/
def mkKey (n : CoreNo) (c : BitVec 2) : CtxKey := BitVec.ofNat 14 (n.toNat * 4 + c.toNat)
/-- The die of a core (R12). -/
def coreDie (n : CoreNo) : Nat := n.toNat / 512
/-- The cluster of a core within the module (R12). -/
def coreCluster (n : CoreNo) : Nat := n.toNat / 16
/-- The four contexts of a core. -/
def coreKeys (n : CoreNo) : List CtxKey := [mkKey n 0, mkKey n 1, mkKey n 2, mkKey n 3]
/-- Sign extension of a field to 64 bits. -/
def sext64 {w : Nat} (v : BitVec w) : Word := v.signExtend 64
/-- A number as a word. -/
def word (n : Nat) : Word := BitVec.ofNat 64 n
/-- Bits [lo + len - 1 : lo] of a number. -/
def bits (v lo len : Nat) : Nat := v / 2 ^ lo % 2 ^ len
/-- A number rounded up in division. -/
def ceilDiv (a b : Nat) : Nat := (a + b - 1) / b

/-! ## Contexts, cores, dies -/

/-- A context. -/
def State.ctx (s : State) (k : CtxKey) : Ctx := tget {} k.toNat s.ctxs
/-- A context set. -/
def State.setCtx (s : State) (k : CtxKey) (c : Ctx) : State := { s with ctxs := tput {} k.toNat c s.ctxs }
/-- A context changed. -/
def State.mapCtx (s : State) (k : CtxKey) (f : Ctx → Ctx) : State := s.setCtx k (f (s.ctx k))
/-- A core. -/
def State.core (s : State) (n : CoreNo) : Core := tget {} n.toNat s.cores
/-- A core set. -/
def State.setCore (s : State) (n : CoreNo) (c : Core) : State := { s with cores := tput {} n.toNat c s.cores }
/-- A core changed. -/
def State.mapCore (s : State) (n : CoreNo) (f : Core → Core) : State := s.setCore n (f (s.core n))
/-- A die. -/
def State.die (s : State) (d : Nat) : Die := tget {} d s.dies
/-- A die set. -/
def State.setDie (s : State) (d : Nat) (x : Die) : State := { s with dies := tput {} d x s.dies }
/-- A die changed. -/
def State.mapDie (s : State) (d : Nat) (f : Die → Die) : State := s.setDie d (f (s.die d))
/-- The context that issues. -/
def State.me (s : State) : Ctx := s.ctx s.iss.key
/-- The issuing context changed. -/
def State.mapMe (s : State) (f : Ctx → Ctx) : State := s.mapCtx s.iss.key f
/-- The issuing core. -/
def State.myCore (s : State) : CoreNo := keyCore s.iss.key
/-- The contexts that differ from their reset value. -/
def State.liveKeys (s : State) : List CtxKey := s.ctxs.map fun e => BitVec.ofNat 14 e.1
/-- A free value's number; taking it advances the counter (DESIGN CHOICE, log 2). -/
def State.bump (s : State) : State := { s with fresh := s.fresh + 1 }

/-! ## The choice of the issuing context (R97) -/

/-- The contexts in the order of R97 counted from `c`: c + 1, c + 2, c + 3, c. -/
def rrOrder (c : BitVec 2) : List (BitVec 2) := [c + 1, c + 2, c + 3, c]

/-- Whether a context can issue. -/
def State.isReady (s : State) (n : CoreNo) (c : BitVec 2) : Bool := (s.ctx (mkKey n c)).run == .ready

/-- The first ready context of a core in the order of R97. -/
def State.nextReady (s : State) (n : CoreNo) (c : BitVec 2) : Option (BitVec 2) := (rrOrder c).find? (s.isReady n)

/-- A context of a core ceases to issue: it becomes the reference context, and if it was current the next ready
context becomes current (R97). -/
def State.leave (s : State) (k : CtxKey) : State :=
  let n := keyCore k
  let c := keyCtx k
  s.mapCore n fun co =>
    if co.cur = some c then { co with cur := s.nextReady n c, ref := c, woke := none } else { co with ref := c }

/-- A context becomes ready; a core without a current context takes it, and of several that wake on one clk the first
in the order of R97 (R97, R98). -/
def State.makeReady (s : State) (k : CtxKey) : State :=
  let n := keyCore k
  let c := keyCtx k
  let s := s.mapCtx k fun x => { x with run := .ready }
  s.mapCore n fun co =>
    match co.cur with
    | none => { co with cur := some c, woke := some s.clk }
    | some d =>
      if co.woke = some s.clk ∧ (rrOrder co.ref).findIdx (· == c) < (rrOrder co.ref).findIdx (· == d) then
        { co with cur := some c }
      else co

/-- A context parks on conditions (R41, R97, R98); while it is being stopped, a park in user mode is its stop-token
trap, which is then due (R278). -/
def State.park (s : State) (k : CtxKey) (conds : List ParkCond) : State :=
  let c := s.ctx k
  let stopping := c.stop == .running
  if stopping && !c.sys then s.setCtx k { c with stopTrap := true }
  else
    let ref := (s.core (keyCore k)).ref
    ((s.setCtx k { c with run := .parked conds, stopTrap := c.stopTrap || stopping }).leave k).mapCore (keyCore k)
      fun co => { co with was := some (s.clk, keyCtx k, ref) }

/-- A context enters a fetch wait (R91). -/
def State.fetchWait (s : State) (k : CtxKey) (block : Nat) : State :=
  (s.mapCtx k fun x => { x with run := .fetchWait block }).leave k

/-- A context becomes idle (R97). -/
def State.idle (s : State) (k : CtxKey) : State :=
  (s.mapCtx k fun x => { x with run := .idle }).leave k

/-- Whether the governor lets a core issue on this clk (R356; DESIGN CHOICE, log 7). -/
def State.mayIssue (s : State) (co : Core) : Bool :=
  decide (64 ≤ s.duty) || decide ((if co.paced.1 = s.clk / 64 then co.paced.2 else 0) < s.duty)

/-- Whether a core issues no bundle any more on this clk (R232, R360). -/
def State.issueOver (s : State) (n : CoreNo) : Bool :=
  let co := s.core n
  decide (s.clk < co.nextIssue) || !s.mayIssue co ||
    (match co.cur with | none => true | some c => (s.ctx (mkKey n c)).run != .ready)

/-! ## Traps (R337 to R345) -/

/-- SR_CAUSE of a trap (R339). -/
def causeWord (code : Nat) (eng async held : Bool) : Word :=
  word (code % 256 + (if eng then 256 else 0) + (if async then 512 else 0) + (if held then 1024 else 0))

/-- SR_EPC of a trap (R339). -/
def epcWord (pc : BitVec 55) (sys : Bool) : Word := word (pc.toNat + (if sys then 2 ^ 63 else 0))

/-- The vector of a cause (R338). -/
def trapVector (syscode : Word) (code : Nat) : BitVec 55 := BitVec.ofNat 55 (syscode.toNat / 2 + 16 * code)

/-! ## The data rates of the stacks (R361) -/

/-- RATESTAT of a request. -/
def RateState.code : RateState → Nat
  | .idle => 0 | .deferred .. => 1 | .retraining .. => 2

/-- A word with field n of 2 bits set. -/
def setField2 (w : Word) (n v : Nat) : Word := BitVec.ofNat 64 (w.toNat - w.toNat / 4 ^ n % 4 * 4 ^ n + v % 4 * 4 ^ n)

/-- RATESTAT of a stack set (R351). -/
def State.showRate (s : State) (n code : Nat) : State :=
  { s with ctl := { s.ctl with ratestat := setField2 s.ctl.ratestat n code } }

/-- The request of a stack set, with RATESTAT (R351, R361). -/
def State.setRate (s : State) (n : Nat) (r : RateState) : State :=
  ({ s with rates := tput .idle n r s.rates } : State).showRate n r.code

/-- The clk that a stack retrains for (R361). -/
def retrainClk : Nat := 1410000

/-- Whether a context has under way the save that it issued at a clk (R346). -/
def State.saving (s : State) (k : CtxKey) (at_ : Nat) : Bool :=
  match (s.ctx k).save with
  | some v => v.at_ == at_
  | none => false

/-- A deferred request starts its retraining once the saves that it waits for have ended (R361). -/
def State.settleRates (s : State) : State :=
  s.rates.foldl (fun s e => match e.2 with
    | .deferred saves _ since old =>
      if saves.all (fun e => !s.saving e.1 e.2) then s.setRate e.1 (.retraining (s.clk + retrainClk) since old) else s
    | _ => s) s

/-- A deferral does not pass its deadline: by then the retraining has started (R361). -/
def State.forceRates (s : State) : State :=
  s.rates.foldl (fun s e => match e.2 with
    | .deferred _ t since old => if t < s.clk then s.setRate e.1 (.retraining (t + retrainClk) since old) else s
    | _ => s) s

/-- Whether the code-buffer block that holds the word at a PC is resident (R24, R90). -/
def State.resident (s : State) (n : CoreNo) (pc : BitVec 55) : Bool :=
  (s.core n).code.any fun b => b.block == pc.toNat / 128

/-- The bubble of a transfer to a PC (R90); where the block of the target is not resident, the fetch wait that begins on
the next clk takes its place (R91, R338). -/
def State.bubble (s : State) (n : CoreNo) (pc : BitVec 55) : State :=
  if s.resident n pc then s.mapCore n fun co => { co with nextIssue := s.clk + 2 } else s

/-- Taking a trap: the record, SYS and the PC on one clk, and one bubble (R338, R339). `epc` is the PC at which ERET
resumes, `emask` the slots that fault at issue. -/
def takeTrap (k : CtxKey) (t : TrapInfo) (epc : BitVec 55) (emask : Nat) (eng async : Bool) (held : Option HeldOp)
    (s : State) : State :=
  let s := s.mapCtx k fun c =>
    { c with
      tr := { cause := causeWord t.code eng async held.isSome, epc := epcWord epc c.sys, emask := word emask,
              eaddr := t.eaddr, einfo := t.einfo }
      sys := true
      pc := trapVector s.ctl.syscode t.code
      held := if held.isSome then held else c.held
      save := none
      fetchFault := none }
  (s.bubble (keyCore k) (trapVector s.ctl.syscode t.code)).settleRates

/-- A trap at issue of the bundle being evaluated: EPC is its first word (R46, R339). -/
def issueTrap (t : TrapInfo) (emask : Nat) (s : State) : State := takeTrap s.iss.key t s.iss.pcb emask false false none s

/-- The return from a trap: SYS := PSYS and PC := SR_EPC.PC, with the bubble of a taken branch; a context without a
share becomes idle (R345) unless CTXLOAD has loaded it (R347), and one whose TDONE has issued waits on for its release
(R267). -/
def returnFromTrap (k : CtxKey) (s : State) : State :=
  let c := s.ctx k
  let sys := decide (c.tr.epc.toNat / 2 ^ 63 = 1)
  let s := s.setCtx k { c with sys := sys, pc := BitVec.ofNat 55 c.tr.epc.toNat, loaded := c.loaded && sys }
  let s := s.bubble (keyCore k) (BitVec.ofNat 55 c.tr.epc.toNat)
  if !c.share.held then (if c.loaded then s else s.idle k)
  else if c.share.ending && !sys then (s.mapCtx k fun c => { c with run := .parked [] }).leave k
  else s

/-- An engine-discovered fault is posted to the context that owns the operation (R203, R341, R342). -/
def State.post (s : State) (k : CtxKey) (info : TrapInfo) (srce : Nat) (held : Option HeldOp) : State :=
  s.mapCtx k fun c => { c with pend := c.pend ++ [{ info := info, srce := srce, held := held, clk := s.clk }] }

/-- SR_EINFO of an engine-discovered fault (R340). -/
def engInfo (srce index detail : Nat) : Word := word (srce + 16 * (index % 256) + 4096 * (detail % 2 ^ 32))

/-! ## Events to system software (R351) -/

/-- The last record of a list with one more dropped after it. -/
def countDrop : List EventRec → List EventRec
  | [] => []
  | [e] => [{ e with dropped := e.dropped + 1 }]
  | e :: r => e :: countDrop r

/-- An event record; a full ring, by its 32-bit pointers, drops it, and the last record written counts it (DESIGN CHOICE,
log 33). -/
def State.event (s : State) (kind source detail : Nat) : State :=
  let n := bits s.ctl.evctl.toNat 0 16
  let rp := bits s.ctl.evctl.toNat 16 32
  if (s.events.length + 2 ^ 32 - rp) % 2 ^ 32 < n then
    { s with events := s.events ++ [{ kind := kind, source := source, detail := detail, cycle := s.clk }] }
  else { s with events := countDrop s.events }

/-! ## The scratchpads (R173 to R177) -/

/-- Bytes of a core's own scratchpad. -/
def spadSize : Nat := 0x60000

/-- Whether a core's cluster is fused (R174). -/
def State.isFused (s : State) (n : CoreNo) : Bool := tget false (coreCluster n) s.spad.fused

/-- The extent in bytes that a core's contexts see (R173). -/
def State.extent (s : State) (n : CoreNo) : Nat := if s.isFused n then 0x600000 else 0x60000

/-- The place of row N of a core's extent: core and local row (R174). A row that a binding, a probe set or a handle named
in a fused cluster, and that lies beyond the extent of a core alone, runs on into the next core's rows (DESIGN CHOICE,
log 55). -/
def rowPlace (fused : Bool) (n : CoreNo) (r : Nat) : Nat × Nat :=
  if fused then (n.toNat / 16 * 16 + r % 16, r / 16) else (n.toNat, r)

/-- The first byte of a local row in the table of scratchpads. -/
def spadKey (core row : Nat) : Nat := core * spadSize + row * 256

/-- A local row of a core. -/
def State.localRow (s : State) (core row : Nat) : Row := BitVec.ofNat 2048 (s.spad.bytes.read (spadKey core row) 256)

/-- Row N of a core's extent. -/
def State.row (s : State) (n : CoreNo) (r : Nat) : Row :=
  s.localRow (rowPlace (s.isFused n) n r).1 (rowPlace (s.isFused n) n r).2

/-- Whether a local row holds an uncorrectable error in bytes [lo, hi) (R175). -/
def State.rowBad (s : State) (core row lo hi : Nat) : Bool :=
  (List.range 16).any fun i =>
    decide (lo < 16 * i + 16) && decide (16 * i < hi) && tget false (spadKey core row / 16 + i) s.spad.err

/-- A byte mask as a row of bytes 0xFF and 0. -/
def maskRow (m : Row256) : Row :=
  BitVec.ofNat 2048 (ofBytes ((List.range 256).map fun i => if m.getLsbD i then (255 : Byte) else 0))

/-- A row with the bytes of a mask replaced (R177). -/
def mergeRow (old new : Row) (m : Row256) : Row := (old &&& ~~~(maskRow m)) ||| (new &&& maskRow m)

/-- Every byte of a row. -/
def fullMask : Row256 := BitVec.allOnes 256

/-- The bytes of a mask are set dirty in every probe slot of the core that is this row (R211). -/
def ProbeSet.dirtyRow (p : ProbeSet) (r : Nat) (m : Row256) : ProbeSet :=
  if p.srow ≤ r ∧ r < p.srow + p.nslot then
    { p with slots := tmod {} (r - p.srow) (fun x => { x with dirty := x.dirty ||| m }) p.slots }
  else p

/-- The row numbers in the extent of a core that name a local row of core `core` (R173, R174). -/
def State.rowNames (s : State) (core row : Nat) : List (CtxKey × Nat) :=
  (s.liveKeys.filter fun k =>
    if s.isFused (keyCore k) then coreCluster (keyCore k) = core / 16 else (keyCore k).toNat = core).map fun k =>
    (k, if s.isFused (keyCore k) then row * 16 + core % 16 else row)

/-- A write under a byte mask into a local row, in one action; it clears the error of a bank line it writes whole, and
marks probe slots dirty unless it is the slot's own fill (R176, R177, R211). -/
def State.writeLocal (s : State) (core row : Nat) (m : Row256) (v : Row) (fill : Bool) : State :=
  let new := mergeRow (s.localRow core row) v m
  let err := (List.range 16).foldl (fun e i =>
    if bits m.toNat (16 * i) 16 = 65535 then tput false (spadKey core row / 16 + i) false e else e) s.spad.err
  let s := { s with spad := { s.spad with bytes := s.spad.bytes.write (spadKey core row) 256 new.toNat, err := err } }
  if fill then s
  else (s.rowNames core row).foldl (fun s e =>
    if (s.ctx e.1).probe.nslot = 0 then s else s.mapCtx e.1 fun c => { c with probe := c.probe.dirtyRow e.2 m }) s

/-- A write under a byte mask into row N of a core's extent. -/
def State.writeRow (s : State) (n : CoreNo) (r : Nat) (m : Row256) (v : Row) : State :=
  s.writeLocal (rowPlace (s.isFused n) n r).1 (rowPlace (s.isFused n) n r).2 m v false

/-- The byte mask of a lane mask over lanes of w bytes (R102, R180). -/
def laneMask (w : Nat) (m : Word) : Row256 :=
  BitVec.ofNat 256 ((List.range 256).foldr (fun i a => 2 * a + (if m.getLsbD (i / w) then 1 else 0)) 0)

/-- The byte mask of the first n bytes from byte lo. -/
def byteRange (lo n : Nat) : Row256 := BitVec.ofNat 256 ((2 ^ n - 1) * 2 ^ lo)

/-! ## Global memory (R198 to R204) -/

/-- The first key of the LPDDR-6 tier. -/
def lpBase : Nat := 2 ^ 39

/-- 8 bytes of the LPDDR-6 tier, as a table walk reads them: an uncorrectable error of the block does not stop a walk, of
which R199 and R203 say nothing (DESIGN CHOICE, log 60). -/
def State.lpWord (s : State) (a : Nat) : Nat := s.dram.bytes.read (lpBase + a) 8

/-- The next table of a table entry; none where the entry is not valid (R199, R201). -/
def tableNext (e : Nat) : Option Nat :=
  if e % 2 = 1 ∧ bits e 1 14 = 0 ∧ bits e 40 24 = 0 then some (bits e 15 25 * 2 ^ 15) else none

/-- Whether a page-table entry maps a page (R200, R201). -/
def pteOk (e : Nat) : Bool :=
  decide (e % 2 = 1) && decide (bits e 6 2 < 2) && decide (bits e 8 2 < 2) && decide (bits e 13 8 = 0) &&
    decide (bits e 41 23 = 0) && (if bits e 8 2 = 0 then decide (bits e 21 20 < 29696)
      else decide (bits e 10 3 = 0) && decide (bits e 21 20 < 524288))

/-- W, S, P, C, SH, MIG, TIER and STACK of an entry (R200). -/
def pteW (e : Nat) : Bool := bits e 1 1 == 1
/-- Search-capable. -/
def pteS (e : Nat) : Bool := bits e 2 1 == 1
/-- Pinned. -/
def pteP (e : Nat) : Bool := bits e 3 1 == 1
/-- Constant. -/
def pteC (e : Nat) : Bool := bits e 4 1 == 1
/-- Sharded optimiser state. -/
def pteSH (e : Nat) : Bool := bits e 5 1 == 1
/-- In a migration window. -/
def pteMig (e : Nat) : Bool := bits e 6 2 == 1
/-- In the LPDDR-6 tier. -/
def pteLp (e : Nat) : Bool := bits e 8 2 == 1
/-- The stack of an HBM4E page. -/
def pteStack (e : Nat) : Nat := bits e 10 3
/-- The key of the first byte of the page. -/
def pteKey (e : Nat) : Nat := (if pteLp e then lpBase else pteStack e * 2 ^ 36) + bits e 21 20 * 2 ^ 21

/-- The walk of the tables for a virtual address (R199, R201). -/
def State.walk (s : State) (va : Nat) : Option Nat :=
  let root := bits s.ctl.ptroot.toNat 15 25 * 2 ^ 15
  match tableNext (s.lpWord (root + 8 * bits va 45 11)) with
  | none => none
  | some t1 =>
    match tableNext (s.lpWord (t1 + 8 * bits va 33 12)) with
    | none => none
    | some t2 =>
      let e := s.lpWord (t2 + 8 * bits va 21 12)
      if pteOk e then some e else none

/-- The entry that a translation unit uses: the cached one, or the one that the walk finds (R202). -/
def State.pte (s : State) (u va : Nat) : Option Nat :=
  if va < 2 ^ 56 then
    let e := tget 0 (va / 2 ^ 21) (tget [] u s.tlb)
    if e = 0 then s.walk va else some e
  else none

/-- The unit caches the entry it used (R202). -/
def State.cache (s : State) (u va : Nat) : State :=
  match s.pte u va with
  | some e => { s with tlb := tmod [] u (tput 0 (va / 2 ^ 21) e) s.tlb }
  | none => s

/-- The kinds of access of a translation (R201). -/
inductive Access where
  | read | write | amog
  deriving DecidableEq, Repr

/-- Translation: the entry, or the code of the fault (R201). -/
def State.translate (s : State) (u va : Nat) (a : Access) : Except Nat Nat :=
  match s.pte u va with
  | none => .error 7
  | some e =>
    match a with
    | .read => .ok e
    | .write => if pteW e && !pteC e then .ok e else .error 8
    | .amog => if pteW e && !pteC e && !pteLp e then .ok e else .error 8

/-- The key of a byte of a translated page. -/
def pteByte (e va : Nat) : Nat := pteKey e + va % 2 ^ 21

/-- The pseudo-channel of block B of a stack in normal interleave (R205). -/
def pcOf (b : Nat) : Nat :=
  let c := b / 3
  128 * (b % 3) + (List.range 10).foldl (fun f i => Nat.xor f (bits c (7 * i) 7)) 0

/-- The parity group of a pseudo-channel, and its members (R205). -/
def pcGroup (pc : Nat) : Nat := pc % 32
/-- The member of a group that holds the parity of the other eleven in stripe s: member i is channel 32 i + group
(R205). -/
def parityPc (group stripe : Nat) : Nat := 32 * (stripe % 12) + group

/-- The pseudo-channel of block B over the channels that are not left out: survivor B mod their number (R206). -/
def survivorPc (out : List Nat) (b : Nat) : Nat :=
  if out.isEmpty then pcOf b
  else ((List.range 384).filter fun p => !out.contains p).getD (b % (384 - out.length)) 0

/-- The channels that the layout of block B leaves out: those retired, and for a block already moved the one whose rebuild
is under way (R206). -/
def StackState.leftOut (st : StackState) (b : Nat) : List Nat :=
  if b < st.moved then st.retired ++ st.rebuild.take 1 else st.retired

/-- The pseudo-channel of block B in the layout of this instant (R206). -/
def StackState.pcFor (st : StackState) (b : Nat) : Nat := survivorPc (st.leftOut b) b

/-- Whether two members of the block's parity group have failed, so that it cannot be read (R207). -/
def StackState.unreadable (st : StackState) (b : Nat) : Bool :=
  decide (1 < ((List.range 384).filter fun q => pcGroup q == pcGroup (st.pcFor b) && !(st.leftOut b).contains q &&
    (tget .normal q st.chan == .degraded || tget .normal q st.chan == .rebuilding)).length)

/-- Whether two failed members make a block unreadable, by key / 256 (R207). -/
def State.blkLost (s : State) (b : Nat) : Bool :=
  decide (b * 256 < lpBase) && !(s.dram.hbm).isEmpty && (tget {} (b / 2 ^ 28) s.dram.hbm).unreadable (b % 2 ^ 28)

/-- Whether a block, by key / 256, cannot be read without error (R203, R207). -/
def State.blkBad (s : State) (b : Nat) : Bool := tget false b s.dram.err || s.blkLost b

/-- The committed value of a block and NOTLIVE; none where the read meets an uncorrectable error (R203, R209). -/
def State.readBlk (s : State) (b : Nat) : Option (Row × Bool) :=
  if tget false b s.dram.dead then some (0, true)
  else if s.blkBad b then none
  else some (BitVec.ofNat 2048 (s.dram.bytes.read (b * 256) 256), false)

/-- A commit: the bytes of the mask written in one action; a dead block is first cleared and revived, so that all of it is
written (R209, R220). -/
def State.commitBlk (s : State) (b : Nat) (m : Row256) (v : Row) : State :=
  if s.blkLost b then s
  else
    let dead := tget false b s.dram.dead
    let old : Row := if dead then 0 else BitVec.ofNat 2048 (s.dram.bytes.read (b * 256) 256)
    { s with dram := { s.dram with
        bytes := s.dram.bytes.write (b * 256) 256 (mergeRow old v m).toNat
        dead := tput false b false s.dram.dead
        err := if dead ∨ m = fullMask then tput false b false s.dram.err else s.dram.err } }

/-- The parts of a staged block laid over a value, by releases in rising order (R220, R221). -/
def overlayParts (l : List StagedPart) (v : Row) : Row := l.foldl (fun v p => mergeRow v p.data p.mask) v

/-- The pieces of n bytes from a virtual address that lie in one block each: address and length (R204). -/
def blockPieces (va n : Nat) : List (Nat × Nat) :=
  if n = 0 then [] else
    (List.range ((va + n - 1) / 256 - va / 256 + 1)).map fun i =>
      let lo := if i = 0 then va else (va / 256 + i) * 256
      (lo, min (va + n) ((va / 256 + i + 1) * 256) - lo)

/-- What a read found: bytes and NOTLIVE, or the fault's code and address. -/
abbrev ReadResult := Except (Nat × Nat) (List Byte × Bool)

/-- Bytes of a row. -/
def rowBytes (r : Row) (lo n : Nat) : List Byte := toBytes n (r.toNat / 256 ^ lo)

/-- A read of n bytes, `blk` reading one block: every part is translated before any byte is delivered (R204). -/
def State.readBytes (s : State) (u : Nat) (blk : Nat → Option (Row × Bool)) (va n : Nat) : ReadResult :=
  let ps := blockPieces va n
  match ps.findSome? (fun p => match s.translate u p.1 .read with | .ok _ => none | .error c => some (c, p.1)) with
  | some f => .error f
  | none =>
    ps.foldl (fun acc p =>
      match acc with
      | .error e => .error e
      | .ok (bs, nl) =>
        match s.translate u p.1 .read with
        | .error c => .error (c, p.1)
        | .ok e =>
          match blk (pteByte e p.1 / 256) with
          | none => .error (14, p.1)
          | some (r, d) => .ok (bs ++ rowBytes r (p.1 % 256) p.2, nl || d)) (.ok ([], false))

/-- The units cache what an access of n bytes uses. -/
def State.cacheN (s : State) (u va n : Nat) : State := (blockPieces va n).foldl (fun s p => s.cache u p.1) s

/-- The first part of a write of n bytes that faults: code and address (R201, R204). -/
def State.writeFault (s : State) (u va n : Nat) : Option (Nat × Nat) :=
  (blockPieces va n).findSome? fun p =>
    match s.translate u p.1 .write with
    | .ok _ => none
    | .error c => some (c, p.1)

/-- The parts of a staged block with one write of a release added: it wins over what the same and later releases have
staged there, and leaves what earlier ones commit (R220, R221). -/
def addPart (w : StagedPart) : List StagedPart → List StagedPart
  | [] => [w]
  | p :: r =>
    if p.epoch < w.epoch then p :: addPart w r
    else
      let strip := fun (l : List StagedPart) =>
        (l.map fun x => { x with mask := x.mask &&& ~~~w.mask }).filter fun x => x.mask != 0
      if p.epoch = w.epoch then
        { epoch := w.epoch, mask := p.mask ||| w.mask, data := mergeRow p.data w.data w.mask } :: strip r
      else w :: strip (p :: r)

/-- One staged write added to its block, which counts once (R220). -/
def addStaged (l : List Staged) (blk va : Nat) (w : StagedPart) : List Staged :=
  if l.any (fun x => x.blk == blk) then
    l.map fun x => if x.blk = blk then { x with va := va, parts := addPart w x.parts } else x
  else l ++ [{ blk := blk, va := va, parts := [w] }]

/-- A byte row from bytes at an offset. -/
def placeBytes (lo : Nat) (bs : List Byte) : Row := BitVec.ofNat 2048 (ofBytes bs * 256 ^ lo)

/-- Bytes staged as pending writes of a context (R220). -/
def State.stageBytes (s : State) (u : Nat) (k : CtxKey) (va : Nat) (bs : List Byte) (epoch : Nat) : State :=
  (blockPieces va bs.length).foldl (fun s p =>
    match s.pte u p.1 with
    | none => s
    | some e =>
      let lo := p.1 % 256
      let w : StagedPart :=
        { epoch := epoch, mask := byteRange lo p.2, data := placeBytes lo ((bs.drop (p.1 - va)).take p.2) }
      (s.cache u p.1).mapCtx k fun c =>
        { c with staged := addStaged c.staged (pteByte e p.1 / 256) (p.1 / 256 * 256) w }) s

/-- Bytes committed directly (R245, R263, R350). -/
def State.commitBytes (s : State) (u va : Nat) (bs : List Byte) : State :=
  (blockPieces va bs.length).foldl (fun s p =>
    match s.pte u p.1 with
    | none => s
    | some e =>
      let lo := p.1 % 256
      (s.cache u p.1).commitBlk (pteByte e p.1 / 256) (byteRange lo p.2)
        (placeBytes lo ((bs.drop (p.1 - va)).take p.2))) s

/-- The staged blocks of a context, its AMOGs counted as one each (R220). -/
def Ctx.stagedCount (c : Ctx) : Nat := c.staged.length + c.amogs.length

/-- Whether a write of n bytes passes the limit of 1,024 staged blocks: a block already staged counts no more (R220). -/
def State.stageRoom (s : State) (u : Nat) (k : CtxKey) (va n : Nat) : Bool :=
  let c := s.ctx k
  let blks := ((blockPieces va n).filterMap fun p => (s.pte u p.1).map fun e => pteByte e p.1 / 256).eraseDups
  decide (c.stagedCount + (blks.filter fun b => !c.staged.any fun w => w.blk == b).length ≤ 1024)

end Sys2Proof.Machine
end

