-- ==== Sys2Proof/Machine/Operands.lean ====
section
/-! DEFINITION. The operand forms of the slots (R35, R36, R40, R101 to R103), and the shape of a meaning: what it
faults on, blocks on and stalls for, and its effect (R41, R42, R46). -/

namespace Sys2Proof.Machine

/-! ## The parts of a meaning -/

/-- The meaning of a slot instruction. `hold`: its access to the scratchpad, or its message, waits for the reply of an
acquire, as an operand would (R42, R186). `fault`: its trap at issue (R46). `instead`: what the context does instead of
issuing the bundle (R272, R278). `arrive`: what it does at the first evaluation at which no other slot blocks (R224, R269).
`block`: the conditions on which it blocks (R98). `onPark`: what it records when its bundle parks (R99). `stall`: it is not
complete, and the state in which its bundle stalls on (R42). `sends`: the messages that it sends (R183). `eff`: its effect
when the bundle issues. `first`: of that, what the X slot of the bundle sees when it is checked at issue (R40). -/
structure Sem where
  hold : State → Bool := fun _ => false
  fault : State → Option TrapInfo := fun _ => none
  instead : State → Option State := fun _ => none
  arrive : State → State := fun s => s
  block : State → List ParkCond := fun _ => []
  onPark : State → State := fun s => s
  stall : State → Option State := fun _ => none
  sends : State → Nat := fun _ => 0
  first : State → State := fun s => s
  eff : State → State

/-- A meaning alone in its bundle: it waits, faults, blocks, stalls or takes effect, in the order of R41, R42 and R46. -/
def Sem.run (m : Sem) (s : State) : Host.Outcome State Fault Refusal :=
  if m.hold s then .next s
  else match m.fault s with
  | some t => .next (issueTrap t (2 ^ s.iss.slot.bit) s)
  | none =>
    match m.instead s with
    | some s' => .next s'
    | none =>
      let s := m.arrive s
      match m.block s with
      | [] =>
        match m.stall s with
        | some s' => .next s'
        | none => .next (m.eff s)
      | cs => .next ((m.onPark s).park s.iss.key cs)

/-! ## Scalar, predicate and mask registers (R36) -/

/-- x[r] as it stood before the bundle; x0 reads zero. -/
def State.rx (s : State) (r : XReg) : Word := if r = 0 then 0 else tget 0 r.toNat s.iss.regs.x
/-- p[r]; p0 reads true. -/
def State.rp (s : State) (r : XReg) : Bool := if r = 0 then true else tget false r.toNat s.iss.regs.p
/-- m[r]; m0 reads all ones. -/
def State.rm (s : State) (r : MReg) : Word := if r = 0 then BitVec.allOnes 64 else tget 0 r.toNat s.iss.regs.m
/-- v[r]. -/
def State.rv (s : State) (r : VReg) : Row := tget 0 r.toNat s.iss.regs.v

/-- A scalar register of a context written; a write to x0 is discarded. -/
def Ctx.wx (c : Ctx) (r : XReg) (v : Word) : Ctx :=
  if r = 0 then c else { c with regs := { c.regs with x := tput 0 r.toNat v c.regs.x } }
/-- x[r] of the issuing context written; a write to x0 is discarded. -/
def State.wx (s : State) (r : XReg) (v : Word) : State := s.mapMe fun c => c.wx r v
/-- p[r] written; a write to p0 is discarded. -/
def State.wp (s : State) (r : XReg) (v : Bool) : State :=
  s.mapMe fun c => if r = 0 then c else { c with regs := { c.regs with p := tput false r.toNat v c.regs.p } }
/-- m[r] written; a write to m0 is discarded. -/
def State.wm (s : State) (r : MReg) (v : Word) : State :=
  s.mapMe fun c => if r = 0 then c else { c with regs := { c.regs with m := tput 0 r.toNat v c.regs.m } }
/-- A vector register of a context written. -/
def Ctx.wv (c : Ctx) (r : VReg) (v : Row) : Ctx := { c with regs := { c.regs with v := tput 0 r.toNat v c.regs.v } }
/-- v[r] written. -/
def State.wv (s : State) (r : VReg) (v : Row) : State := s.mapMe fun c => c.wv r v
/-- v[r] of the issuing context as it stands, for the elements that a mask leaves (R102). -/
def State.lv (s : State) (r : VReg) : Row := tget 0 r.toNat s.me.regs.v
/-- The PC set by a control transfer (R88), with the bubble of R90 or the fetch wait of R91. -/
def State.jump (s : State) (pc : BitVec 55) : State :=
  (s.mapMe fun c => { c with pc := pc }).bubble s.myCore pc
/-- The PC set by a taken LOOP: no bubble (R90), or the fetch wait (R91). -/
def State.jumpFree (s : State) (pc : BitVec 55) : State := s.mapMe fun c => { c with pc := pc }

/-- PCb + sext(imm32) (R88). -/
def State.target (s : State) (imm : BitVec 32) : BitVec 55 := s.iss.pcb + imm.signExtend 55

/-- EA of XA: x[base] + sext(off32) (R35). -/
def State.ea (s : State) (base : XReg) (off : BitVec 32) : Word := s.rx base + sext64 off

/-- N of SADV, SWAIT, JPROG: x[rs] + zext(imm32) (R178, R266). -/
def State.countOf (s : State) (rs : XReg) (imm : BitVec 32) : Word := s.rx rs + imm.zeroExtend 64

/-! ## Elements (R101, R102) -/

/-- Element i of width w of a row (R8). -/
def elem (w : Nat) (r : Row) (i : Nat) : Nat := r.toNat / 2 ^ (w * i) % 2 ^ w

/-- A row from its elements of width w, element 0 lowest. -/
def packRow (w : Nat) (l : List Nat) : Row := BitVec.ofNat 2048 (l.foldr (fun x a => x % 2 ^ w + 2 ^ w * a) 0)

/-- Whether a mask enables element k of width w (R102). -/
def maskOn (w : Nat) (m : Word) (k : Nat) : Bool :=
  m.getLsbD (if w = 64 then 2 * k else if w = 32 then k else if w = 16 then k / 2 else k / 4)

/-- A row with the enabled elements replaced (R102). -/
def maskedRow (w : Nat) (m : Word) (old : Row) (f : Nat → Nat) : Row :=
  packRow w ((List.range (2048 / w)).map fun i => if maskOn w m i then f i else elem w old i)

/-- A number of w bits as two's complement. -/
def toI (w v : Nat) : Int := if v % 2 ^ w < 2 ^ (w - 1) then Int.ofNat (v % 2 ^ w) else Int.ofNat (v % 2 ^ w) - 2 ^ w

/-- An integer modulo 2^w (R8). -/
def ofI (w : Nat) (v : Int) : Nat := (v % (2 : Int) ^ w).toNat

/-! ## Stream heads as operands (R103, R188 to R194) -/

/-- A stream register of a context. -/
def Ctx.stream (c : Ctx) (sn : SReg) : Stream := tget {} sn.toNat c.streams
/-- A stream register set. -/
def Ctx.setStream (c : Ctx) (sn : SReg) (x : Stream) : Ctx := { c with streams := tput {} sn.toNat x c.streams }

/-- P: the slots of the pattern (R189). -/
def Stream.total (x : Stream) : Nat := x.n0 * x.n1 * x.n2 * x.n3

/-- F: the slots filled from the head without a gap (R191). -/
def Stream.avail (x : Stream) : Nat :=
  ((List.range x.ns).takeWhile fun i => x.filled.contains (x.pos + i)).length

/-- D: slots advanced and not drained (R188). -/
def Stream.pending (x : Stream) : Nat := x.pos - x.drained

/-- Pattern slots not yet consumed or advanced (R195). -/
def Stream.left (x : Stream) : Nat := x.total - x.pos

/-- The row number of the head or tail slot (R188). -/
def Stream.row (x : Stream) : Nat := x.brow + x.tail

/-- The head of an IN stream moved on by n slots (R191, R194). -/
def Stream.consume (x : Stream) (n : Nat) : Stream :=
  { x with pos := x.pos + n, tail := (x.tail + n) % x.ns, filled := x.filled.filter fun p => decide (x.pos + n ≤ p) }

/-- The stream protocol fault (R103). -/
def protocolFault : TrapInfo := { code := 12 }

/-- The streams that sources name. -/
def headsOf (l : List VSrc) : List SReg := l.filterMap fun v => match v with | .head sn _ => some sn | .v _ => none

/-- The fault of reading stream heads (R103, R191). -/
def State.srcFault (s : State) (l : List VSrc) : Option TrapInfo :=
  if (headsOf l).any (fun sn =>
    let x := s.me.stream sn
    !x.bound || x.kind != 0 || (x.avail == 0 && x.left == 0)) then some protocolFault else none

/-- The conditions on which a slot's reading of stream heads blocks (R98, R191). Each slot of a bundle asks for one filled
slot of a stream that it reads, and consumes one: for a V0 optimiser whose stream a V1 or M slot reads too, R124 does not
say how many the bundle needs (DESIGN CHOICE, log 34). -/
def State.srcBlock (s : State) (l : List VSrc) : List ParkCond :=
  (headsOf l).filterMap fun sn => if (s.me.stream sn).avail = 0 then some (.inAvail sn 1) else none

/-- An uncorrectable error of a head row read as an operand is found at issue, with SR_EADDR 0: R175 names only LDS, LDROW
and AMO there (DESIGN CHOICE, log 51). -/
def State.srcBad (s : State) (l : List VSrc) : Option TrapInfo :=
  if (headsOf l).any (fun sn =>
    let pl := rowPlace (s.isFused s.myCore) s.myCore (s.me.stream sn).row
    decide (0 < (s.me.stream sn).avail) && s.rowBad pl.1 pl.2 0 256) then some { code := 14 } else none

/-- A vector source as it stood before the bundle (R40, R103). -/
def State.src (s : State) : VSrc → Row
  | .v r => s.rv r
  | .head sn _ => tget 0 sn.toNat s.iss.heads

/-- The heads that a slot consumes pass (R103). -/
def State.consume (s : State) (l : List VSrc) : State :=
  l.foldl (fun s v => match v with
    | .head sn false => s.mapMe fun c => c.setStream sn ((c.stream sn).consume 1)
    | _ => s) s

/-- A meaning that only writes one scalar register. -/
def aluSem (rd : XReg) (f : State → Word) : Sem := { eff := fun s => s.wx rd (f s) }

end Sys2Proof.Machine
end

