-- ==== Sys2Proof/Machine/Flags.lean ====
section
/-! DEFINITION. The sticky flags of SR_FPSTAT (R68, R69). -/

namespace Sys2Proof.Machine

/-! ## Sticky flags (R68) -/

/-- INV. -/
def fINV : Nat := 1
/-- OVF. -/
def fOVF : Nat := 2
/-- UNF. -/
def fUNF : Nat := 4
/-- INX. -/
def fINX : Nat := 8
/-- OGRID. -/
def fOGRID : Nat := 16
/-- OUTOV. -/
def fOUTOV : Nat := 32

/-- Flags ORed into SR_FPSTAT of a context (R69). -/
def Ctx.setFlags (c : Ctx) (f : Nat) : Ctx := { c with stat := { c.stat with fpstat := c.stat.fpstat ||| word f } }

end Sys2Proof.Machine
end

