-- ==== Sys2Proof/Machine/Float.lean ====
section
/-! DEFINITION. Floating-point formats, rounding, conversion and the elementary functions (R57 to R67, R70), on exact
integers: a finite value is a sign and m x 2^e. -/

namespace Sys2Proof.Machine

/-! ## Formats (R57) -/

/-- The special values of a format: with infinities and NaNs, with the E4M3 NaN only, with none. -/
inductive Specials where
  | ieee | e4m3 | none
  deriving DecidableEq, Repr

/-- A floating-point format (R57). -/
structure Fmt where
  ebits : Nat
  mbits : Nat
  bias : Nat
  sp : Specials
  deriving DecidableEq, Repr

end Sys2Proof.Machine

namespace Sys2Proof

/-- The format of a floating-point element type. -/
def ETy.fmt : ETy → Machine.Fmt
  | .f32 => ⟨8, 23, 127, .ieee⟩
  | .f16 => ⟨5, 10, 15, .ieee⟩
  | .e5m2 => ⟨5, 2, 15, .ieee⟩
  | .e4m3 => ⟨4, 3, 7, .e4m3⟩
  | .e3m2 => ⟨3, 2, 3, .none⟩
  | .e2m3 => ⟨2, 3, 1, .none⟩
  | .e2m1 => ⟨2, 1, 1, .none⟩
  | .bf16 | .i8 | .i16 | .i32 | .i64 | .lq2 => ⟨8, 7, 127, .ieee⟩

end Sys2Proof

namespace Sys2Proof.Machine

/-- FP32. -/
def fmt32 : Fmt := ETy.fmt .f32
/-- The sign bit's place. -/
def Fmt.signBit (f : Fmt) : Nat := f.ebits + f.mbits

/-- A value: NaN, an infinity, or (-1)^neg x m x 2^e exactly. -/
inductive FVal where
  | nan
  | inf (neg : Bool)
  | fin (neg : Bool) (m : Nat) (e : Int)
  deriving DecidableEq, Repr

/-- The value of a code (R57). -/
def Fmt.decode (f : Fmt) (c : Nat) : FVal :=
  let neg := bits c f.signBit 1 == 1
  let ex := bits c f.mbits f.ebits
  let m := bits c 0 f.mbits
  let top := 2 ^ f.ebits - 1
  match f.sp with
  | .ieee =>
    if ex = top then (if m = 0 then .inf neg else .nan)
    else if ex = 0 then .fin neg m (1 - f.bias - f.mbits) else .fin neg (m + 2 ^ f.mbits) (ex - f.bias - f.mbits)
  | .e4m3 =>
    if ex = top ∧ m = 2 ^ f.mbits - 1 then .nan
    else if ex = 0 then .fin neg m (1 - f.bias - f.mbits) else .fin neg (m + 2 ^ f.mbits) (ex - f.bias - f.mbits)
  | .none => if ex = 0 then .fin neg m (1 - f.bias - f.mbits) else .fin neg (m + 2 ^ f.mbits) (ex - f.bias - f.mbits)

/-- The sign of a code. -/
def Fmt.neg (f : Fmt) (c : Nat) : Bool := bits c f.signBit 1 == 1
/-- A sign put on a magnitude code. -/
def Fmt.signed (f : Fmt) (neg : Bool) (mag : Nat) : Nat := mag + (if neg then 2 ^ f.signBit else 0)
/-- The magnitude code of the largest finite value (R57). -/
def Fmt.maxMag (f : Fmt) : Nat :=
  match f.sp with
  | .ieee => (2 ^ f.ebits - 1) * 2 ^ f.mbits - 1
  | .e4m3 => 2 ^ (f.ebits + f.mbits) - 2
  | .none => 2 ^ (f.ebits + f.mbits) - 1
/-- The magnitude code of infinity. -/
def Fmt.infMag (f : Fmt) : Nat := (2 ^ f.ebits - 1) * 2 ^ f.mbits
/-- The canonical NaN (R63); +0 where the format has none (R66). -/
def Fmt.qnan (f : Fmt) : Nat :=
  match f.sp with
  | .ieee => (2 ^ f.ebits - 1) * 2 ^ f.mbits + 2 ^ (f.mbits - 1)
  | .e4m3 => 2 ^ (f.ebits + f.mbits) - 1
  | .none => 0

/-! ## Rounding (R65) -/

/-- The length in bits of a number. -/
def bitLen (m : Nat) : Nat := if m = 0 then 0 else Nat.log2 m + 1

/-- Whether a value between two grid values goes to the one away from zero. `rem` of 2^sh is the fraction, `sticky`
that a nonzero part lies below it, `odd` the parity of the lower, u the draw's high half. -/
def roundsUp (mode : Rnd) (neg odd : Bool) (rem sh u : Nat) (sticky : Bool) : Bool :=
  match mode with
  | .rne => decide (2 ^ sh < 2 * rem) || (decide (2 * rem = 2 ^ sh) && (sticky || odd))
  | .rz => false
  | .ru => !neg
  | .rd => neg
  | .sr => decide (u * 2 ^ sh < rem * 2 ^ 32)

/-- m x 2^e (plus a part below it where `sticky`) on the grid of spacing 2^q: the multiple, and whether it is inexact
(R65). -/
def toGrid (mode : Rnd) (neg : Bool) (m : Nat) (e q : Int) (sticky : Bool) (u : Nat) : Nat × Bool :=
  if q ≤ e then (m * 2 ^ (e - q).toNat, sticky)
  else
    let sh := (q - e).toNat
    let lo := m / 2 ^ sh
    let rem := m % 2 ^ sh
    if rem = 0 ∧ !sticky then (lo, false)
    else (if roundsUp mode neg (lo % 2 == 1) rem sh u sticky then lo + 1 else lo, true)

/-- The magnitude code of n x 2^q where 2^q is the spacing of the format's grid at that value. -/
def Fmt.codeOf (f : Fmt) (n : Nat) (q : Int) : Nat :=
  if n < 2 ^ f.mbits then n
  else
    let (n, q) := if n = 2 ^ (f.mbits + 1) then (n / 2, q + 1) else (n, q)
    (q + f.mbits + f.bias).toNat * 2 ^ f.mbits + (n - 2 ^ f.mbits)

/-- CVT of a nonzero finite value m x 2^e, with a part below it where `sticky` (R65): the code and the flags. -/
def Fmt.round (f : Fmt) (mode : Rnd) (u : Nat) (neg : Bool) (m : Nat) (e : Int) (sticky : Bool) : Nat × Nat :=
  if m = 0 ∧ !sticky then (f.signed neg 0, 0)
  else
    let emin : Int := 1 - f.bias
    let q : Int := max (bitLen m + e - 1 - f.mbits) (emin - f.mbits)
    let (n, inx) := toGrid mode neg m e q sticky u
    let mag := f.codeOf n q
    let fl := if inx then fINX + (if mag < 2 ^ f.mbits then fUNF else 0) else 0
    if f.maxMag < mag then
      let toInf := f.sp = .ieee ∧ (mode = .rne ∨ mode = .sr ∨ (mode = .ru ∧ !neg) ∨ (mode = .rd ∧ neg))
      (f.signed neg (if toInf then f.infMag else f.maxMag), fl ||| fINX ||| fOVF)
    else (f.signed neg mag, fl)

/-- CVT of any value, the special inputs as R66 gives them. -/
def Fmt.cvt (f : Fmt) (mode : Rnd) (u : Nat) (v : FVal) : Nat × Nat :=
  match v with
  | .nan => (f.qnan, if f.sp = .none then fINV else 0)
  | .inf neg =>
    match f.sp with
    | .ieee => (f.signed neg f.infMag, 0)
    | .e4m3 => (f.qnan, fINV)
    | .none => (f.signed neg f.maxMag, fINV)
  | .fin neg m e => f.round mode u neg m e false

/-- RNE_fmt (R8). -/
def Fmt.rne (f : Fmt) (v : FVal) : Nat × Nat := f.cvt .rne 0 v

/-! ## Exact arithmetic on values (R62, R63) -/

/-- A signed multiple of 2^e as a value; an exact zero is +0. -/
def fvOfInt (n : Int) (e : Int) : FVal := .fin (decide (n < 0)) n.natAbs e

/-- The signed multiple of 2^e of a finite value whose exponent is at least e. -/
def toMult (neg : Bool) (m : Nat) (x e : Int) : Int :=
  let v : Int := (m * 2 ^ (x - e).toNat : Nat)
  if neg then -v else v

/-- The exact sum and its invalid flag (R62). -/
def fvAdd (a b : FVal) : FVal × Nat :=
  match a, b with
  | .nan, _ => (.nan, 0)
  | _, .nan => (.nan, 0)
  | .inf x, .inf y => if x = y then (.inf x, 0) else (.nan, fINV)
  | .inf x, .fin _ _ _ => (.inf x, 0)
  | .fin _ _ _, .inf y => (.inf y, 0)
  | .fin x m e, .fin y n g =>
    let b := min e g
    let s := toMult x m e b + toMult y n g b
    if s = 0 then (.fin (x && y && m == 0 && n == 0) 0 b, 0) else (fvOfInt s b, 0)

/-- The negated value. -/
def fvNeg : FVal → FVal
  | .nan => .nan
  | .inf x => .inf (!x)
  | .fin x m e => .fin (!x) m e

/-- The exact product and its invalid flag (R62). -/
def fvMul (a b : FVal) : FVal × Nat :=
  match a, b with
  | .inf _, .fin _ 0 _ => (.nan, fINV)
  | .fin _ 0 _, .inf _ => (.nan, fINV)
  | .nan, _ => (.nan, 0)
  | _, .nan => (.nan, 0)
  | .inf x, .inf y => (.inf (x != y), 0)
  | .inf x, .fin y _ _ => (.inf (x != y), 0)
  | .fin x _ _, .inf y => (.inf (x != y), 0)
  | .fin x m e, .fin y n g => (.fin (x != y) (m * n) (e + g), 0)

/-- A value rounded, with the flags of the operation that made it. -/
def Fmt.finish (f : Fmt) (v : FVal × Nat) : Nat × Nat := ((f.rne v.1).1, (f.rne v.1).2 ||| v.2)

/-- a + b. -/
def Fmt.add (f : Fmt) (a b : Nat) : Nat × Nat := f.finish (fvAdd (f.decode a) (f.decode b))
/-- a - b. -/
def Fmt.sub (f : Fmt) (a b : Nat) : Nat × Nat := f.finish (fvAdd (f.decode a) (fvNeg (f.decode b)))
/-- a x b. -/
def Fmt.mul (f : Fmt) (a b : Nat) : Nat × Nat := f.finish (fvMul (f.decode a) (f.decode b))
/-- The exact fused sum of a product and a value: 0 x infinity is invalid whatever is added (R62, DEDUCED, log 8). -/
def fvFma (a b c : FVal) : FVal × Nat :=
  let p := fvMul a b
  let r := fvAdd p.1 c
  (r.1, r.2 ||| p.2)
/-- a x b + c, rounded once (R62). -/
def Fmt.fma (f : Fmt) (a b c : Nat) : Nat × Nat := f.finish (fvFma (f.decode a) (f.decode b) (f.decode c))
/-- a x b - c, rounded once. -/
def Fmt.fms (f : Fmt) (a b c : Nat) : Nat × Nat := f.finish (fvFma (f.decode a) (f.decode b) (fvNeg (f.decode c)))
/-- c - a x b, rounded once. -/
def Fmt.fnma (f : Fmt) (a b c : Nat) : Nat × Nat := f.finish (fvFma (fvNeg (f.decode a)) (f.decode b) (f.decode c))

/-! ## Division and roots, correctly rounded (R62) -/

/-- The bits kept below the quotient's or root's leading bit before the single rounding. -/
def guardBits : Nat := 64

/-- The quotient of two values, rounded. -/
def Fmt.divV (f : Fmt) (a b : FVal) : Nat × Nat :=
  match a, b with
  | .nan, _ => (f.qnan, 0)
  | _, .nan => (f.qnan, 0)
  | .inf _, .inf _ => (f.qnan, fINV)
  | .inf x, .fin y _ _ => (f.signed (x != y) f.infMag, 0)
  | .fin x _ _, .inf y => (f.signed (x != y) 0, 0)
  | .fin x m e, .fin y n g =>
    if n = 0 then (if m = 0 then (f.qnan, fINV) else (f.signed (x != y) f.infMag, 0))
    else if m = 0 then (f.signed (x != y) 0, 0)
    else
      let k := guardBits + bitLen n
      f.round .rne 0 (x != y) (m * 2 ^ k / n) (e - g - k) (m * 2 ^ k % n != 0)

/-- a / b. -/
def Fmt.div (f : Fmt) (a b : Nat) : Nat × Nat := f.divV (f.decode a) (f.decode b)

/-- One step of the root by bits. -/
def isqrtStep (v : Nat) : Nat → Nat → Nat
  | 0, r => r
  | k + 1, r => if (r + 2 ^ k) * (r + 2 ^ k) ≤ v then isqrtStep v k (r + 2 ^ k) else isqrtStep v k r

/-- The integer part of the square root. -/
def isqrt (v : Nat) : Nat := isqrtStep v (bitLen v / 2 + 1) 0

/-- The square root. -/
def Fmt.sqrt (f : Fmt) (a : Nat) : Nat × Nat :=
  match f.decode a with
  | .nan => (f.qnan, 0)
  | .inf x => if x then (f.qnan, fINV) else (f.infMag, 0)
  | .fin x m e =>
    if m = 0 then (f.signed x 0, 0)
    else if x then (f.qnan, fINV)
    else
      let k : Nat := 2 * guardBits + (if e % 2 = 0 then 0 else 1)
      let v := m * 2 ^ k
      f.round .rne 0 false (isqrt v) ((e - k) / 2) (isqrt v * isqrt v != v)

/-- 1 / a. -/
def Fmt.rcp (f : Fmt) (a : Nat) : Nat × Nat := f.div (f.bias * 2 ^ f.mbits) a

/-- 1 / sqrt(a). -/
def Fmt.rsq (f : Fmt) (a : Nat) : Nat × Nat :=
  match f.decode a with
  | .nan => (f.qnan, 0)
  | .inf x => if x then (f.qnan, fINV) else (0, 0)
  | .fin x m e =>
    if m = 0 then (f.signed x f.infMag, 0)
    else if x then (f.qnan, fINV)
    else
      let k : Nat := 2 * guardBits + 2 * bitLen m + (if e % 2 = 0 then 0 else 1)
      let r := isqrt (2 ^ k / m)
      f.round .rne 0 false r ((-e - k) / 2) (r * r * m != 2 ^ k)

/-! ## exp2 and log2, correctly rounded (R62, DEDUCED, log 9) -/

/-- The fraction bits of the fixed-point evaluation. -/
def fixBits : Nat := 256
/-- ln 2 with 256 fraction bits. -/
def ln2Fix : Nat := 80260960185991308862233904206310070533990667611589946606122867505419956976171

/-- The exponential series of t from a term on: sum of t^j / j!, in fixed point. -/
def expSeries (t : Nat) : Nat → Nat → Nat → Nat → Nat
  | 0, _, _, sum => sum
  | n + 1, j, term, sum => expSeries t n (j + 1) (term * t / (j * 2 ^ fixBits)) (sum + term)

/-- 2^fr for a fraction of 256 bits, in fixed point. -/
def exp2Fix (fr : Nat) : Nat := expSeries (fr * ln2Fix / 2 ^ fixBits) 70 1 (2 ^ fixBits) 0

/-- 2^a. -/
def Fmt.exp2 (f : Fmt) (a : Nat) : Nat × Nat :=
  match f.decode a with
  | .nan => (f.qnan, 0)
  | .inf x => if x then (0, 0) else (f.infMag, 0)
  | .fin x m e =>
    let one : Nat := f.bias * 2 ^ f.mbits
    if m = 0 then (one, 0)
    else if (bitLen m : Int) + e < -80 then
      -- within 2^-80 of 1: the rounding of 1 and a part beyond it
      if x then f.round .rne 0 false (2 ^ 100 - 1) (-100) true else f.round .rne 0 false (2 ^ 100) (-100) true
    else if 20 < (bitLen m : Int) + e then
      -- beyond every exponent of the formats
      if x then f.round .rne 0 false 1 (-1000) true else f.round .rne 0 false 1 1000 true
    else
      let v : Int := toMult x m (e + fixBits) 0
      let n := v / (2 : Int) ^ fixBits
      let fr := (v % (2 : Int) ^ fixBits).toNat
      if fr = 0 then f.round .rne 0 false 1 n false
      else f.round .rne 0 false (exp2Fix fr) (n - fixBits) true

/-- The series of atanh: sum of z^(2j+1) / (2j + 1), in fixed point; z2 is z squared. -/
def atanhSeries (z2 : Nat) : Nat → Nat → Nat → Nat → Nat
  | 0, _, _, sum => sum
  | n + 1, j, p, sum => atanhSeries z2 n (j + 2) (p * z2 / 2 ^ fixBits) (sum + p / j)

/-- log2 of m / d for d ≤ m < 2d, in fixed point. -/
def log2Fix (m d : Nat) : Nat :=
  let z := (m - d) * 2 ^ fixBits / (m + d)
  2 * atanhSeries (z * z / 2 ^ fixBits) 90 1 z 0 * 2 ^ fixBits / ln2Fix

/-- log2 a. -/
def Fmt.log2 (f : Fmt) (a : Nat) : Nat × Nat :=
  match f.decode a with
  | .nan => (f.qnan, 0)
  | .inf x => if x then (f.qnan, fINV) else (f.infMag, 0)
  | .fin x m e =>
    if m = 0 then (f.signed true f.infMag, 0)
    else if x then (f.qnan, fINV)
    else
      let l := bitLen m - 1
      let k : Int := l + e
      if m = 2 ^ l then f.finish (fvOfInt k 0, 0)
      else
        -- k + log2(m / 2^l); near 1 from below, -log2(2^(l+1) / m), so that no leading bits cancel
        if k = -1 then
          let d := log2Fix (2 ^ (l + 1)) m
          f.round .rne 0 true d (-(fixBits : Int)) true
        else
          let v : Int := k * 2 ^ fixBits + log2Fix m (2 ^ l)
          f.round .rne 0 (decide (v < 0)) v.natAbs (-(fixBits : Int)) true

/-! ## Minimum, maximum and comparison (R64) -/

/-- Whether a value lies below another, -0 below +0 where `zeros`; false where one is NaN. -/
def fvLt (zeros : Bool) (a b : FVal) : Bool :=
  match a, b with
  | .nan, _ => false
  | _, .nan => false
  | .inf x, .inf y => x && !y
  | .inf x, .fin _ _ _ => x
  | .fin _ _ _, .inf y => !y
  | .fin x m e, .fin y n g =>
    if m = 0 ∧ n = 0 then zeros && x && !y
    else decide (toMult x m e (min e g) < toMult y n g (min e g))

/-- Whether two values are equal, the zeros being equal; false where one is NaN. -/
def fvEq (a b : FVal) : Bool :=
  match a, b with
  | .nan, _ => false
  | _, .nan => false
  | a, b => !fvLt false a b && !fvLt false b a

/-- minimumNumber (R64): NaN only where both are NaN. -/
def Fmt.min (f : Fmt) (a b : Nat) : Nat :=
  match f.decode a, f.decode b with
  | .nan, .nan => f.qnan
  | .nan, _ => b
  | _, .nan => a
  | x, y => if fvLt true y x then b else a

/-- maximumNumber (R64). -/
def Fmt.max (f : Fmt) (a b : Nat) : Nat :=
  match f.decode a, f.decode b with
  | .nan, .nan => f.qnan
  | .nan, _ => b
  | _, .nan => a
  | x, y => if fvLt true x y then b else a

/-! ## Conversion to integers (R67) -/

/-- A value rounded to an integer of width w, and the flags. -/
def toIntCvt (w : Nat) (signed : Bool) (mode : Rnd) (u : Nat) (v : FVal) : Nat × Nat :=
  let hi : Int := if signed then 2 ^ (w - 1) - 1 else 2 ^ w - 1
  let lo : Int := if signed then -(2 ^ (w - 1)) else 0
  match v with
  | .nan => (0, fINV)
  | .inf x => (ofI w (if x then lo else hi), fINV)
  | .fin x m e =>
    let r := toGrid mode x m e 0 false u
    let n : Int := if x then -(r.1 : Int) else r.1
    if hi < n then (ofI w hi, fINV)
    else if n < lo then (ofI w lo, fINV)
    else (ofI w n, if r.2 then fINX else 0)

/-! ## The random generator (R70) -/

/-- DRAW(c) under a seed. -/
def draw (seed c : Word) : Word :=
  let z := seed + (c + 1) * 0x9E3779B97F4A7C15
  let z := (z ^^^ (z >>> 30)) * 0xBF58476D1CE4E5B9
  let z := (z ^^^ (z >>> 27)) * 0x94D049BB133111EB
  z ^^^ (z >>> 31)

/-- The draws of n elements of a context (R70). -/
def Ctx.draws (c : Ctx) (i : Nat) : Word := draw c.stat.rndseed (c.stat.rndctr + word i)

/-- EIDX advanced by n, RIDX unchanged (R70). -/
def advanceCtr (ctr : Word) (n : Nat) : Word := word (ctr.toNat / 2 ^ 20 * 2 ^ 20 + (ctr.toNat + n) % 2 ^ 20)

/-- The counter of a context after a draw of n elements. -/
def Ctx.advance (c : Ctx) (n : Nat) : Ctx := { c with stat := { c.stat with rndctr := advanceCtr c.stat.rndctr n } }

/-- The bits that SR compares: bits [63:32] of a draw (R65). -/
def drawHigh (z : Word) : Nat := z.toNat / 2 ^ 32

end Sys2Proof.Machine
end

