-- ==== Sys2Proof/Machine/Reads.lean ====
section
/-! DEFINITION. What a fill of a context sees of a block: the committed value at one instant, merged with the context's
own pending writes, its AMOGs among them (R220, R222, R227). -/

namespace Sys2Proof.Machine

/-! ## AMOG (R227) -/

/-- The element after an AMOG (R227). -/
def amogNew (op : AmogOp) (w a b : Nat) : Nat :=
  match op with
  | .add => (a + b) % 2 ^ w
  | .fadd => (fmt32.add a b).1
  | .min => if toI w a ≤ toI w b then a else b
  | .max => if toI w a ≤ toI w b then b else a
  | .or => Nat.lor a b

/-- The bytes of the element of an AMOG. -/
def Amog.size (a : Amog) : Nat := if a.w64 then 8 else 4

/-- The new bytes of an AMOG's element, over the value of its block (R227). -/
def Amog.data (a : Amog) (r : Row) : Row :=
  placeBytes (a.ea % 256)
    (toBytes a.size (amogNew a.op (8 * a.size) (ofBytes (rowBytes r (a.ea % 256) a.size)) a.val))

/-- A block with an AMOG applied to its element. -/
def Amog.over (a : Amog) (r : Row) : Row := mergeRow r (a.data r) (byteRange (a.ea % 256) a.size)

/-! ## A context's own pending writes (R220, R222) -/

/-- The staged writes of a context to a block laid over a value (R220, R222). -/
def overlay (l : List Staged) (b : Nat) (v : Row) : Row :=
  l.foldl (fun v w => if w.blk = b then overlayParts w.parts v else v) v

/-- The writebacks of a context to a block that are not staged, laid over a value, but for those whose row cannot be read
(R217, R222). -/
def State.overlayUnstaged (s : State) (u : Nat) (l : List Unstaged) (b : Nat) (v : Row) : Row :=
  l.foldl (fun v w => match w.why, s.pte u w.va with
    | .row _ _, _ => v
    | _, some e => if pteByte e w.va / 256 = b then mergeRow v w.data w.mask else v
    | _, none => v) v

/-- The AMOGs of a context on a block applied to a value in issue order, but for those that would fault (R220, R227). -/
def State.overlayAmogs (s : State) (u : Nat) (l : List Amog) (b : Nat) (v : Row) : Row :=
  l.foldl (fun v a => match s.translate u a.ea .amog with
    | .ok e => if pteByte e a.ea / 256 = b then a.over v else v
    | .error _ => v) v

/-- The pending writes of a context to a block, of the releases that `p` picks, laid over a value: those staged, those that
wait, and the AMOGs, which commit after them (R221). -/
def State.overlayLayer (s : State) (k : CtxKey) (p : Nat → Bool) (b : Nat) (v : Row) : Row :=
  let c := s.ctx k
  let u := coreDie (keyCore k)
  let parts := fun (w : Staged) => { w with parts := w.parts.filter fun x => p x.epoch }
  s.overlayAmogs u (c.amogs.filter fun a => p a.epoch) b
    (s.overlayUnstaged u (c.unstaged.filter fun w => p w.epoch) b (overlay (c.staged.map parts) b v))

/-- The pending writes of a context laid over a value, by its full releases under way: those each is to commit, in their
order, and then those that no full release has yet taken (R221). -/
def State.overlayFrom (s : State) (k : CtxKey) (b : Nat) : Nat → List Nat → Row → Row
  | lo, [], v => s.overlayLayer k (fun e => decide (lo ≤ e)) b v
  | lo, hi :: r, v => s.overlayFrom k b (hi + 1) r (s.overlayLayer k (fun e => decide (lo ≤ e) && decide (e ≤ hi)) b v)

/-- The pending writes of a context to a block laid over a value: they take precedence (R222). -/
def State.overlayOwn (s : State) (k : CtxKey) (b : Nat) (v : Row) : Row :=
  s.overlayFrom k b 0 (((s.ctx k).releases.filter fun r => r.ranges.isEmpty).map (·.epoch)) v

/-- A block as a fill of a context sees it now: the committed value, merged with the context's own pending writes
(R222). The dirty bytes of a VALID slot of its own probe set are no pending write before their writeback, and a stream fill, a
copy or a gather does not see them: R222 speaks of blocks without such a slot only (DESIGN CHOICE, log 57). -/
def State.nowBlk (s : State) (k : CtxKey) (b : Nat) : Option (Row × Bool) :=
  (s.readBlk b).map fun r => (s.overlayOwn k b r.1, r.2)

/-- The committed value of a block at an instant since the last acquire point of a context: a read ahead, or now (R222). -/
def State.readAhead (s : State) (k : CtxKey) (b : Nat) : Option (Row × Bool) :=
  match (s.ctx k).samples.find? (fun e => e.blk == b) with
  | some e => some (e.row, e.notlive)
  | none => s.readBlk b

/-- A block as a fill of a context may see it: such a value, merged with the context's own pending writes (R222). -/
def State.viewBlk (s : State) (k : CtxKey) (b : Nat) : Option (Row × Bool) :=
  (s.readAhead k b).map fun r => (s.overlayOwn k b r.1, r.2)

/-- A read on behalf of a context under R222, or of committed values where `k` is none. -/
def State.readVA (s : State) (u : Nat) (k : Option CtxKey) (va n : Nat) : ReadResult :=
  s.readBytes u (match k with | some k => s.viewBlk k | none => s.readBlk) va n

/-- A slot whose fill has been taken from a block keeps a write of its own context to it. -/
def ProbeSlot.keepOwn (x : ProbeSlot) (b : Nat) (f : Row → Row) : ProbeSlot :=
  match x.fill with
  | some e => if pteByte e.pte x.tag / 256 = b then { x with fill := some { e with data := e.data.map fun r => (f r.1, r.2) } } else x
  | none => x

/-- A context has itself committed the write `f` to a block: its reads ahead of the block are used no longer, and a probe
fill under way, which takes the block as it was at its translation, goes on seeing the write, though no longer pending (R222,
R240, R249; DEDUCED, log 57). -/
def State.forget (s : State) (k : CtxKey) (b : Nat) (f : Row → Row) : State :=
  s.mapCtx k fun c =>
    let c := if c.samples.isEmpty then c else { c with samples := c.samples.filter fun x => x.blk != b }
    if c.probe.slots.all fun e => e.2.fill.isNone then c
    else { c with probe := { c.probe with slots := tmap {} (fun x => x.keepOwn b f) c.probe.slots } }

end Sys2Proof.Machine
end

