-- ==== Sys2Proof/Machine/Access.lean ====
section
/-! DEFINITION. Accesses to scratchpad rows: bank atomics, accesses of a fused cluster that take effect after issue, the
order of a context's accesses, and meanings that read vector sources (R103, R175 to R177, R181, R182, R186). -/

namespace Sys2Proof.Machine

/-! ## Bank atomics (R181, R182) -/

/-- The new element of an atomic (R181). -/
def amoNew (op : AmoOp) (w a b c : Nat) : Nat :=
  match op with
  | .add => (a + b) % 2 ^ w
  | .fadd => (fmt32.add a b).1
  | .min => if toI w a ≤ toI w b then a else b
  | .max => if toI w a ≤ toI w b then b else a
  | .minu => Nat.min a b
  | .maxu => Nat.max a b
  | .and => Nat.land a b
  | .or => Nat.lor a b
  | .xor => Nat.xor a b
  | .swap => b
  | .cas => if a = c then b else a

/-- The element width of W (R181). -/
def amoWidth (w64 : Bool) : Nat := if w64 then 64 else 32

/-- The row after an atomic under a mask (R182). -/
def amoRow (op : AmoOp) (w64 : Bool) (m : Word) (old va vc : Row) : Row :=
  let w := amoWidth w64
  maskedRow w m old fun e => amoNew op w (elem w old e) (elem w va e) (elem w vc e)

/-- The lanes that an atomic writes under a mask (R102). -/
def amoLanes (w64 : Bool) (m : Word) : Word :=
  word ((List.range 64).foldr (fun i a => 2 * a + b2n (if w64 then m.getLsbD (i / 2 * 2) else m.getLsbD i)) 0)

/-! ## Registers that wait for a reply (R42) -/

/-- A vector register of the issuing context waits for a reply (R183). -/
def State.awaitV (s : State) (vd : VReg) : State := s.mapMe fun c => { c with vwait := c.vwait ++ [vd] }
/-- A scalar register of the issuing context waits for a reply (R256); x0 does not. -/
def State.awaitX (s : State) (rd : XReg) : State :=
  s.mapMe fun c => if rd = 0 then c else { c with xwait := c.xwait ++ [rd] }

/-- A result that a context awaits is written to x[rd]; one that it no longer awaits is dropped (R42, R360). -/
def Ctx.deliverX (c : Ctx) (rd : XReg) (v : Word) : Ctx :=
  if c.xwait.contains rd then { c.wx rd v with xwait := c.xwait.erase rd } else c
/-- The same for v[vd], from the register as it stands. -/
def Ctx.deliverV (c : Ctx) (vd : VReg) (f : Row → Row) : Ctx :=
  if c.vwait.contains vd then { c.wv vd (f (tget 0 vd.toNat c.regs.v)) with vwait := c.vwait.erase vd } else c

/-! ## Fused accesses (R176, R179) -/

/-- Whether an address lies in a row of the issuing core itself (R173, R174). -/
def State.ownRow (s : State) (ea : Word) : Bool :=
  (rowPlace (s.isFused s.myCore) s.myCore (ea.toNat / 256)).1 == s.myCore.toNat

/-- An access of the issuing context to a row of another core of its fused cluster issues: it takes effect later, after
the earlier ones (R176; DESIGN CHOICE, log 11). -/
def State.pushFused (s : State) (ea : Word) (kind : FusedKind) : State :=
  let pl := rowPlace (s.isFused s.myCore) s.myCore (ea.toNat / 256)
  s.mapMe fun c =>
    { c with acc := c.acc + 1, fused := c.fused ++ [{ num := c.acc, core := pl.1, row := pl.2, kind := kind }] }

/-- The row number of the buffer slot of a pattern slot: the head or tail slot holds pattern slot `pos` (R188). -/
def Stream.slotRow (x : Stream) (slot : Nat) : Nat :=
  x.brow + (if x.pos ≤ slot then x.tail + (slot - x.pos) else x.tail + x.ns - (x.pos - slot) % x.ns) % x.ns

/-- Whether an access writes its row. -/
def FusedKind.writes : FusedKind → Bool
  | .store _ _ => true | .atomic .. => true | _ => false

/-- Whether a message writes the local row `row` of its destination. -/
def MsgKind.writesRow (row : Nat) : MsgKind → Bool
  | .store ea _ _ _ => ea / 256 == row
  | .atomic _ _ _ ea _ _ _ _ => ea / 256 == row
  | _ => false

/-- The writes that have issued into a local row of a core and have not been performed: fused accesses, optimiser outputs
and messages, each by its context and its number among the accesses of that context (R176, R184, R192). -/
def State.rowWrites (s : State) (core row : Nat) : List (CtxKey × Nat) :=
  s.ctxs.flatMap (fun e =>
    (e.2.fused.filter (fun o => o.core == core && o.row == row && o.kind.writes)).map (fun o => (BitVec.ofNat 14 e.1, o.num)) ++
      (e.2.outs.filter fun o => o.core == core && o.row == row).map fun o => (BitVec.ofNat 14 e.1, o.num)) ++
    s.cores.flatMap fun e =>
      (e.2.msgs.filter fun m => m.dst.toNat == core && m.reply.isNone && m.kind.writesRow row).map fun m => (m.key, m.num)

/-- The writes not yet performed into the row of a pattern slot's buffer slot. -/
def State.slotWrites (s : State) (k : CtxKey) (x : Stream) (slot : Nat) : List (CtxKey × Nat) :=
  let pl := rowPlace (s.isFused (keyCore k)) (keyCore k) (x.slotRow slot)
  s.rowWrites pl.1 pl.2

/-- Slots of an output stream that have just been advanced, noted with the writes that are due into them (R192). -/
def State.noteDue (s : State) (k : CtxKey) (sn : SReg) : State :=
  let x := (s.ctx k).stream sn
  let new := ((List.range (x.pos - x.drained)).map (· + x.drained)).filter fun i => !x.due.any fun e => e.1 == i
  s.mapCtx k fun c => c.setStream sn { x with due := x.due ++ new.map fun i => (i, s.slotWrites k x i) }

/-- The advanced slots of a stream into which every write due has been performed, with the present clk (R192). -/
def State.newElig (s : State) (k : CtxKey) (x : Stream) : List (Nat × Nat) :=
  (x.due.filter fun e => !(x.elig.any fun f => f.1 == e.1) &&
    e.2.all fun w => !(s.slotWrites k x e.1).contains w).map fun e => (e.1, s.clk)

/-- The slots that have become eligible for the storers on the present clk, noted as it ends (R192). -/
def State.noteElig (s : State) : State :=
  { s with ctxs := s.ctxs.map fun e => (e.1, { e.2 with streams := e.2.streams.map fun f =>
    (f.1, { f.2 with elig := f.2.elig ++ s.newElig (BitVec.ofNat 14 e.1) f.2 }) }) }

/-- Some clk pass (R192, R361). -/
def State.tick (s : State) (n : Nat) : State := ({ s.noteElig with clk := s.clk + n } : State).forceRates

/-- What a fused access of context `k` does when it takes effect (R176). -/
def State.doFused (s : State) (k : CtxKey) (o : FusedOp) : State :=
  let old := s.localRow o.core o.row
  match o.kind with
  | .field rd lo => s.mapCtx k fun c => c.deliverX rd (word (elem 64 old (lo / 8)))
  | .load vd => s.mapCtx k fun c => c.deliverV vd fun _ => old
  | .store m v => s.writeLocal o.core o.row m v false
  | .atomic op w64 vd va vc m nr =>
    let w := amoWidth w64
    let s := s.writeLocal o.core o.row (laneMask 4 (amoLanes w64 m)) (amoRow op w64 m old va vc) false
    if nr then s else s.mapCtx k fun c => c.deliverV vd fun r => maskedRow w m r fun e => elem w old e

/-- The earliest fused access of a context takes effect (R176). -/
def State.applyFused (s : State) (k : CtxKey) (o : FusedOp) : State :=
  (s.mapCtx k fun c => { c with fused := c.fused.drop 1 }).doFused k o

/-- Every fused access of a context that has not taken effect does so, in issue order (R176). -/
def State.flushCtx (s : State) (k : CtxKey) : State := (s.ctx k).fused.foldl (fun s o => s.applyFused k o) s

/-- The same for the issuing context. -/
def State.flush (s : State) : State := s.flushCtx s.iss.key

/-! ## The order of a context's accesses (R176, R186) -/

/-- Whether the context awaits the reply of an LDROWR.acq or AMOR.acq (R186). -/
def State.acquiring (s : State) : Bool := (s.core s.myCore).msgs.any fun m => m.key == s.iss.key && m.acq

/-- A meaning that reads the scratchpad at issue: its earlier fused accesses take effect first, and it waits for an
acquire's reply (R176, R186; DEDUCED, log 11). -/
def Sem.onRow (m : Sem) : Sem :=
  { m with
    hold := State.acquiring
    fault := fun s => m.fault s.flush
    eff := fun s => m.eff s.flush }

/-! ## Stream heads as operands (R103, R175, R186) -/

/-- A meaning with vector sources: one that reads a stream head reads the scratchpad (R103, R176, R186; DEDUCED,
log 11). -/
def Sem.onHeads (m : Sem) (l : List VSrc) : Sem := if (headsOf l).isEmpty then m else m.onRow

/-- A meaning that reads vector sources and otherwise only takes effect. -/
def vecSem (l : List VSrc) (eff : State → State) : Sem :=
  ({ fault := fun s => (s.srcFault l).or (s.srcBad l), block := fun s => s.srcBlock l,
     eff := fun s => eff (s.consume l) } : Sem).onHeads l

end Sys2Proof.Machine
end

