-- ==== Sys2Proof/Machine/Scalar.lean ====
section
/-! DEFINITION. Scalar, predicate and control instructions (spec/04). Each meaning is its parts (sem), and the meaning
of the instruction alone in its bundle (exec). -/

namespace Sys2Proof.Machine

open Host (Outcome)

/-! ## Division (R82) -/

/-- The signed quotient, truncated toward zero (R82). -/
def divS (a b : Word) : Word :=
  if b = 0 then BitVec.allOnes 64
  else if a = BitVec.intMin 64 ∧ b = BitVec.allOnes 64 then BitVec.intMin 64
  else BitVec.ofInt 64 (a.toInt.tdiv b.toInt)
/-- The signed remainder, with the sign of the dividend (R82). -/
def remS (a b : Word) : Word :=
  if b = 0 then a
  else if a = BitVec.intMin 64 ∧ b = BitVec.allOnes 64 then 0
  else BitVec.ofInt 64 (a.toInt - b.toInt * a.toInt.tdiv b.toInt)
/-- The unsigned quotient (R82). -/
def divU (a b : Word) : Word := if b = 0 then BitVec.allOnes 64 else word (a.toNat / b.toNat)
/-- The unsigned remainder (R82). -/
def remU (a b : Word) : Word := if b = 0 then a else word (a.toNat - b.toNat * (a.toNat / b.toNat))

/-! ## NOP (R34) -/

/-- NOP has no effect (R34). -/
def semNop : Sem := { eff := fun s => s }
/-- NOP. -/
def execNop (s : State) : Outcome State Fault Refusal := semNop.run s

/-! ## Register-register instructions (R81) -/

/-- ADD: x[rd] := a + b (R81). -/
def semAdd (rd a b : XReg) : Sem := aluSem rd fun s => s.rx a + s.rx b
/-- ADD. -/
def execAdd (rd a b : XReg) (s : State) : Outcome State Fault Refusal := (semAdd rd a b).run s

/-- SUB: x[rd] := a - b (R81). -/
def semSub (rd a b : XReg) : Sem := aluSem rd fun s => s.rx a - s.rx b
/-- SUB. -/
def execSub (rd a b : XReg) (s : State) : Outcome State Fault Refusal := (semSub rd a b).run s

/-- AND: x[rd] := a AND b (R81). -/
def semAnd (rd a b : XReg) : Sem := aluSem rd fun s => s.rx a &&& s.rx b
/-- AND. -/
def execAnd (rd a b : XReg) (s : State) : Outcome State Fault Refusal := (semAnd rd a b).run s

/-- OR: x[rd] := a OR b (R81). -/
def semOr (rd a b : XReg) : Sem := aluSem rd fun s => s.rx a ||| s.rx b
/-- OR. -/
def execOr (rd a b : XReg) (s : State) : Outcome State Fault Refusal := (semOr rd a b).run s

/-- XOR: x[rd] := a XOR b (R81). -/
def semXor (rd a b : XReg) : Sem := aluSem rd fun s => s.rx a ^^^ s.rx b
/-- XOR. -/
def execXor (rd a b : XReg) (s : State) : Outcome State Fault Refusal := (semXor rd a b).run s

/-- ANDN: x[rd] := a AND NOT b (R81). -/
def semAndn (rd a b : XReg) : Sem := aluSem rd fun s => s.rx a &&& ~~~(s.rx b)
/-- ANDN. -/
def execAndn (rd a b : XReg) (s : State) : Outcome State Fault Refusal := (semAndn rd a b).run s

/-- SHL: x[rd] := a shifted left by b[5:0] (R81). -/
def semShl (rd a b : XReg) : Sem := aluSem rd fun s => s.rx a <<< ((s.rx b).toNat % 64)
/-- SHL. -/
def execShl (rd a b : XReg) (s : State) : Outcome State Fault Refusal := (semShl rd a b).run s

/-- SHR: x[rd] := a shifted right by b[5:0], zeros in (R81). -/
def semShr (rd a b : XReg) : Sem := aluSem rd fun s => s.rx a >>> ((s.rx b).toNat % 64)
/-- SHR. -/
def execShr (rd a b : XReg) (s : State) : Outcome State Fault Refusal := (semShr rd a b).run s

/-- SAR: x[rd] := a shifted right by b[5:0], copies of a[63] in (R81). -/
def semSar (rd a b : XReg) : Sem := aluSem rd fun s => (s.rx a).sshiftRight ((s.rx b).toNat % 64)
/-- SAR. -/
def execSar (rd a b : XReg) (s : State) : Outcome State Fault Refusal := (semSar rd a b).run s

/-- ROL: x[rd] := a rotated left by b[5:0] (R81). -/
def semRol (rd a b : XReg) : Sem := aluSem rd fun s => (s.rx a).rotateLeft ((s.rx b).toNat % 64)
/-- ROL. -/
def execRol (rd a b : XReg) (s : State) : Outcome State Fault Refusal := (semRol rd a b).run s

/-- MUL: x[rd] := the low half of the product (R81). -/
def semMul (rd a b : XReg) : Sem := aluSem rd fun s => s.rx a * s.rx b
/-- MUL. -/
def execMul (rd a b : XReg) (s : State) : Outcome State Fault Refusal := (semMul rd a b).run s

/-- MULH: x[rd] := the high half of the signed product (R81). -/
def semMulh (rd a b : XReg) : Sem := aluSem rd fun s => BitVec.ofInt 64 ((s.rx a).toInt * (s.rx b).toInt / 2 ^ 64)
/-- MULH. -/
def execMulh (rd a b : XReg) (s : State) : Outcome State Fault Refusal := (semMulh rd a b).run s

/-- MULHU: x[rd] := the high half of the unsigned product (R81). -/
def semMulhu (rd a b : XReg) : Sem := aluSem rd fun s => word ((s.rx a).toNat * (s.rx b).toNat / 2 ^ 64)
/-- MULHU. -/
def execMulhu (rd a b : XReg) (s : State) : Outcome State Fault Refusal := (semMulhu rd a b).run s

/-- DIV: x[rd] := the signed quotient (R82). -/
def semDiv (rd a b : XReg) : Sem := aluSem rd fun s => divS (s.rx a) (s.rx b)
/-- DIV. -/
def execDiv (rd a b : XReg) (s : State) : Outcome State Fault Refusal := (semDiv rd a b).run s

/-- DIVU: x[rd] := the unsigned quotient (R82). -/
def semDivu (rd a b : XReg) : Sem := aluSem rd fun s => divU (s.rx a) (s.rx b)
/-- DIVU. -/
def execDivu (rd a b : XReg) (s : State) : Outcome State Fault Refusal := (semDivu rd a b).run s

/-- REM: x[rd] := the signed remainder (R82). -/
def semRem (rd a b : XReg) : Sem := aluSem rd fun s => remS (s.rx a) (s.rx b)
/-- REM. -/
def execRem (rd a b : XReg) (s : State) : Outcome State Fault Refusal := (semRem rd a b).run s

/-- REMU: x[rd] := the unsigned remainder (R82). -/
def semRemu (rd a b : XReg) : Sem := aluSem rd fun s => remU (s.rx a) (s.rx b)
/-- REMU. -/
def execRemu (rd a b : XReg) (s : State) : Outcome State Fault Refusal := (semRemu rd a b).run s

/-- MIN: x[rd] := the signed minimum (R81). -/
def semMin (rd a b : XReg) : Sem := aluSem rd fun s => if (s.rx a).slt (s.rx b) then s.rx a else s.rx b
/-- MIN. -/
def execMin (rd a b : XReg) (s : State) : Outcome State Fault Refusal := (semMin rd a b).run s

/-- MAX: x[rd] := the signed maximum (R81). -/
def semMax (rd a b : XReg) : Sem := aluSem rd fun s => if (s.rx a).slt (s.rx b) then s.rx b else s.rx a
/-- MAX. -/
def execMax (rd a b : XReg) (s : State) : Outcome State Fault Refusal := (semMax rd a b).run s

/-- MINU: x[rd] := the unsigned minimum (R81). -/
def semMinu (rd a b : XReg) : Sem := aluSem rd fun s => if (s.rx a).ult (s.rx b) then s.rx a else s.rx b
/-- MINU. -/
def execMinu (rd a b : XReg) (s : State) : Outcome State Fault Refusal := (semMinu rd a b).run s

/-- MAXU: x[rd] := the unsigned maximum (R81). -/
def semMaxu (rd a b : XReg) : Sem := aluSem rd fun s => if (s.rx a).ult (s.rx b) then s.rx b else s.rx a
/-- MAXU. -/
def execMaxu (rd a b : XReg) (s : State) : Outcome State Fault Refusal := (semMaxu rd a b).run s

/-! ## Bit-field instructions (R83) -/

/-- The number of leading zero bits (R83). -/
def clz64 (v : Word) : Nat := if v = 0 then 64 else 63 - Nat.log2 v.toNat
/-- The number of trailing zero bits (R83). -/
def ctz64 (v : Word) : Nat := ((List.range 64).takeWhile fun i => !v.getLsbD i).length
/-- The number of one bits (R83, R109). -/
def popc64 (v : Word) : Nat := ((List.range 64).filter fun i => v.getLsbD i).length
/-- A word of ones in its low n bits. -/
def ones (n : Nat) : Word := word (2 ^ n - 1)
/-- a[len - 1 : 0] sign-extended (R83). -/
def signField (v : Word) (len : Nat) : Word := BitVec.ofInt 64 (toI len v.toNat)

/-- CLZ: x[rd] := the number of leading zero bits (R83). -/
def semClz (rd a : XReg) : Sem := aluSem rd fun s => word (clz64 (s.rx a))
/-- CLZ. -/
def execClz (rd a : XReg) (s : State) : Outcome State Fault Refusal := (semClz rd a).run s

/-- CTZ: x[rd] := the number of trailing zero bits (R83). -/
def semCtz (rd a : XReg) : Sem := aluSem rd fun s => word (ctz64 (s.rx a))
/-- CTZ. -/
def execCtz (rd a : XReg) (s : State) : Outcome State Fault Refusal := (semCtz rd a).run s

/-- POPC: x[rd] := the number of one bits (R83). -/
def semPopc (rd a : XReg) : Sem := aluSem rd fun s => word (popc64 (s.rx a))
/-- POPC. -/
def execPopc (rd a : XReg) (s : State) : Outcome State Fault Refusal := (semPopc rd a).run s

/-- BSWAP: byte k of a moved to byte 7 - k (R83). -/
def semBswap (rd a : XReg) : Sem := aluSem rd fun s => word (ofBytes (toBytes 8 (s.rx a).toNat).reverse)
/-- BSWAP. -/
def execBswap (rd a : XReg) (s : State) : Outcome State Fault Refusal := (semBswap rd a).run s

/-- EXTR: bits [pos + len - 1 : pos] of a, zero-extended (R83). -/
def semExtr (rd a : XReg) (pos lenm1 : BitVec 6) : Sem := aluSem rd fun s => s.rx a >>> pos.toNat &&& ones (lenm1.toNat + 1)
/-- EXTR. -/
def execExtr (rd a : XReg) (pos lenm1 : BitVec 6) (s : State) : Outcome State Fault Refusal := (semExtr rd a pos lenm1).run s

/-- INS: bits [min(pos + len, 64) - 1 : pos] of x[rd] replaced by the low bits of a (R83). -/
def semIns (rd a : XReg) (pos lenm1 : BitVec 6) : Sem := 
  aluSem rd fun s =>
    let field := ones (lenm1.toNat + 1) <<< pos.toNat
    (s.rx rd &&& ~~~field) ||| (s.rx a <<< pos.toNat &&& field)
/-- INS. -/
def execIns (rd a : XReg) (pos lenm1 : BitVec 6) (s : State) : Outcome State Fault Refusal := (semIns rd a pos lenm1).run s

/-- SEXT: a[len - 1 : 0] sign-extended (R83). -/
def semSext (rd a : XReg) (lenm1 : BitVec 6) : Sem := aluSem rd fun s => signField (s.rx a) (lenm1.toNat + 1)
/-- SEXT. -/
def execSext (rd a : XReg) (lenm1 : BitVec 6) (s : State) : Outcome State Fault Refusal := (semSext rd a lenm1).run s

/-- ZEXT: a[len - 1 : 0] zero-extended (R83). -/
def semZext (rd a : XReg) (lenm1 : BitVec 6) : Sem := aluSem rd fun s => s.rx a &&& ones (lenm1.toNat + 1)
/-- ZEXT. -/
def execZext (rd a : XReg) (lenm1 : BitVec 6) (s : State) : Outcome State Fault Refusal := (semZext rd a lenm1).run s

/-! ## Immediate instructions (R84) -/

/-- ADDI: a combined with the sign-extended immediate (R84). -/
def semAddi (rd a : XReg) (imm : BitVec 32) : Sem := aluSem rd fun s => s.rx a + sext64 imm
/-- ADDI. -/
def execAddi (rd a : XReg) (imm : BitVec 32) (s : State) : Outcome State Fault Refusal := (semAddi rd a imm).run s

/-- ANDI: a combined with the sign-extended immediate (R84). -/
def semAndi (rd a : XReg) (imm : BitVec 32) : Sem := aluSem rd fun s => s.rx a &&& sext64 imm
/-- ANDI. -/
def execAndi (rd a : XReg) (imm : BitVec 32) (s : State) : Outcome State Fault Refusal := (semAndi rd a imm).run s

/-- ORI: a combined with the sign-extended immediate (R84). -/
def semOri (rd a : XReg) (imm : BitVec 32) : Sem := aluSem rd fun s => s.rx a ||| sext64 imm
/-- ORI. -/
def execOri (rd a : XReg) (imm : BitVec 32) (s : State) : Outcome State Fault Refusal := (semOri rd a imm).run s

/-- XORI: a combined with the sign-extended immediate (R84). -/
def semXori (rd a : XReg) (imm : BitVec 32) : Sem := aluSem rd fun s => s.rx a ^^^ sext64 imm
/-- XORI. -/
def execXori (rd a : XReg) (imm : BitVec 32) (s : State) : Outcome State Fault Refusal := (semXori rd a imm).run s

/-- SHLI: a shifted by imm32[5:0] (R84). -/
def semShli (rd a : XReg) (n : BitVec 6) : Sem := aluSem rd fun s => s.rx a <<< n.toNat
/-- SHLI. -/
def execShli (rd a : XReg) (n : BitVec 6) (s : State) : Outcome State Fault Refusal := (semShli rd a n).run s

/-- SHRI: a shifted by imm32[5:0] (R84). -/
def semShri (rd a : XReg) (n : BitVec 6) : Sem := aluSem rd fun s => s.rx a >>> n.toNat
/-- SHRI. -/
def execShri (rd a : XReg) (n : BitVec 6) (s : State) : Outcome State Fault Refusal := (semShri rd a n).run s

/-- SARI: a shifted by imm32[5:0] (R84). -/
def semSari (rd a : XReg) (n : BitVec 6) : Sem := aluSem rd fun s => (s.rx a).sshiftRight n.toNat
/-- SARI. -/
def execSari (rd a : XReg) (n : BitVec 6) (s : State) : Outcome State Fault Refusal := (semSari rd a n).run s

/-- LI: x[rd] := the sign-extended immediate (R84). -/
def semLi (rd : XReg) (imm : BitVec 32) : Sem := aluSem rd fun _ => sext64 imm
/-- LI. -/
def execLi (rd : XReg) (imm : BitVec 32) (s : State) : Outcome State Fault Refusal := (semLi rd imm).run s

/-- LIH: imm32 over the low half of a (R84). -/
def semLih (rd a : XReg) (imm : BitVec 32) : Sem := aluSem rd fun s => (imm.zeroExtend 64 <<< 32) ||| (s.rx a &&& 0xFFFFFFFF)
/-- LIH. -/
def execLih (rd a : XReg) (imm : BitVec 32) (s : State) : Outcome State Fault Refusal := (semLih rd a imm).run s

/-! ## Compares, predicate logic and select (R85 to R87) -/

/-- The conditions of R85 on 64-bit operands. -/
def condHolds (c : Cond) (a b : Word) : Bool :=
  match c with
  | .eq => a == b
  | .ne => a != b
  | .lt => a.slt b
  | .le => !(b.slt a)
  | .gt => b.slt a
  | .ge => !(a.slt b)
  | .ltu => a.ult b
  | .leu => !(b.ult a)
  | .gtu => b.ult a
  | .geu => !(a.ult b)
  | .tst => (a &&& b) != 0
  | .ntst => (a &&& b) == 0

/-- The functions of R86 on two bits. -/
def logHolds (op : LogOp) (a b : Bool) : Bool :=
  match op with
  | .and => a && b
  | .or => a || b
  | .xor => a != b
  | .andn => a && !b
  | .orn => a || !b
  | .nand => !(a && b)
  | .nor => !(a || b)
  | .xnor => a == b
  | .mov => a
  | .not => !a

/-- A meaning that writes a result and its complement to two predicates. -/
def predSem (pd pe : XReg) (f : State → Bool) : Sem := { eff := fun s => (s.wp pd (f s)).wp pe (!f s) }

/-- CMP: the compare of two registers (R85). -/
def semCmp (c : Cond) (pd pe a b : XReg) : Sem := predSem pd pe fun s => condHolds c (s.rx a) (s.rx b)
/-- CMP. -/
def execCmp (c : Cond) (pd pe a b : XReg) (s : State) : Outcome State Fault Refusal := (semCmp c pd pe a b).run s

/-- CMPI: the compare with the sign-extended immediate (R85). -/
def semCmpi (c : Cond) (pd pe a : XReg) (imm : BitVec 26) : Sem := 
  predSem pd pe fun s => condHolds c (s.rx a) (sext64 imm)
/-- CMPI. -/
def execCmpi (c : Cond) (pd pe a : XReg) (imm : BitVec 26) (s : State) : Outcome State Fault Refusal := (semCmpi c pd pe a imm).run s

/-- PLOG: a function of two predicates (R86). -/
def semPlog (op : LogOp) (pd pe pa pb : XReg) : Sem := 
  predSem pd pe fun s => logHolds op (s.rp pa) (s.rp pb)
/-- PLOG. -/
def execPlog (op : LogOp) (pd pe pa pb : XReg) (s : State) : Outcome State Fault Refusal := (semPlog op pd pe pa pb).run s

/-- SEL: x[rd] := x[rs1] if p[pc], else x[rs2] (R87). -/
def semSel (rd pc a b : XReg) : Sem := aluSem rd fun s => if s.rp pc then s.rx a else s.rx b
/-- SEL. -/
def execSel (rd pc a b : XReg) (s : State) : Outcome State Fault Refusal := (semSel rd pc a b).run s

/-! ## Control transfer (R88 to R90) -/

/-- BR: PC := PCb + sext(imm32) (R88). -/
def semBr (imm : BitVec 32) : Sem := { eff := fun s => s.jump (s.target imm) }
/-- BR. -/
def execBr (imm : BitVec 32) (s : State) : Outcome State Fault Refusal := (semBr imm).run s

/-- BRX: PC := (x[rs] + sext(imm32)) mod 2^55 (R88). -/
def semBrx (rs : XReg) (imm : BitVec 32) : Sem := 
  { eff := fun s => s.jump ((s.rx rs).setWidth 55 + imm.signExtend 55) }
/-- BRX. -/
def execBrx (rs : XReg) (imm : BitVec 32) (s : State) : Outcome State Fault Refusal := (semBrx rs imm).run s

/-- CALL: x[rd] := PCn; PC := PCb + sext(imm32) (R88). -/
def semCall (rd : XReg) (imm : BitVec 32) : Sem := 
  { eff := fun s => (s.wx rd (s.iss.pcn.setWidth 64)).jump (s.target imm) }
/-- CALL. -/
def execCall (rd : XReg) (imm : BitVec 32) (s : State) : Outcome State Fault Refusal := (semCall rd imm).run s

/-- RET: PC := x[rs] mod 2^55 (R88). -/
def semRet (rs : XReg) : Sem := { eff := fun s => s.jump ((s.rx rs).setWidth 55) }
/-- RET. -/
def execRet (rs : XReg) (s : State) : Outcome State Fault Refusal := (semRet rs).run s

/-- LOOP: counts x[rd] down and branches while it was above 1 (R89 to R91). -/
def semLoop (rd : XReg) (imm : BitVec 32) : Sem :=
  { eff := fun s =>
      if 1 < (s.rx rd).toNat then (s.wx rd (s.rx rd - 1)).jumpFree (s.target imm) else s.wx rd 0 }
/-- LOOP. -/
def execLoop (rd : XReg) (imm : BitVec 32) (s : State) : Outcome State Fault Refusal := (semLoop rd imm).run s

/-! ## Scalar scratchpad access (R92, R93) -/

/-- The range fault of a row address (R173). -/
def State.rangeFault (s : State) (ea : Word) : Option TrapInfo :=
  if ea.toNat < s.extent s.myCore then none else some { code := 9, eaddr := ea }

/-- The place of the row that an address names: core and local row (R173, R174). -/
def State.eaPlace (s : State) (ea : Word) : Nat × Nat := rowPlace (s.isFused s.myCore) s.myCore (ea.toNat / 256)

/-- The uncorrectable data error of bytes [lo, hi) of the row of an address, found at issue (R175). -/
def State.rowFault (s : State) (ea : Word) (lo hi : Nat) : Option TrapInfo :=
  match s.rangeFault ea with
  | some t => some t
  | none =>
    if s.rowBad (s.eaPlace ea).1 (s.eaPlace ea).2 lo hi then some { code := 14, eaddr := ea } else none

/-- The byte of the 8-byte field of an address within its row (R92). -/
def fieldOf (ea : Word) : Nat := ea.toNat % 256 / 8 * 8

/-- LDS: x[rd] := the 8-byte field of the row, at issue for a row of the own core and later for one of another core of the
fused cluster (R92, R175, R176). -/
def semLds (rd base : XReg) (off : BitVec 32) : Sem := 
  { fault := fun s => s.rowFault (s.ea base off) (fieldOf (s.ea base off)) (fieldOf (s.ea base off) + 8)
    hold := State.acquiring
    eff := fun s =>
      if s.ownRow (s.ea base off) then
        let s := s.flush
        s.wx rd (word (elem 64 (s.row s.myCore ((s.ea base off).toNat / 256)) (fieldOf (s.ea base off) / 8)))
      else (s.pushFused (s.ea base off) (.field rd (fieldOf (s.ea base off)))).awaitX rd }
/-- LDS. -/
def execLds (rd base : XReg) (off : BitVec 32) (s : State) : Outcome State Fault Refusal := (semLds rd base off).run s

/-- The effect of STS: the 8-byte field of the row := x[rs], at issue or later as LDS (R92, R93, R176). -/
def State.storeField (s : State) (rs base : XReg) (off : BitVec 32) : State :=
  let f := fieldOf (s.ea base off)
  let v := placeBytes f (toBytes 8 (s.rx rs).toNat)
  if s.ownRow (s.ea base off) then s.flush.writeRow s.myCore ((s.ea base off).toNat / 256) (byteRange f 8) v
  else s.pushFused (s.ea base off) (.store (byteRange f 8) v)

/-- STS (R92, R93). The X slot of its bundle is checked on the row that it has written (R40). -/
def semSts (rs base : XReg) (off : BitVec 32) : Sem :=
  { fault := fun s => s.rangeFault (s.ea base off)
    hold := State.acquiring
    first := fun s => if (s.rangeFault (s.ea base off)).isNone then s.storeField rs base off else s
    eff := fun s => s.storeField rs base off }
/-- STS. -/
def execSts (rs base : XReg) (off : BitVec 32) (s : State) : Outcome State Fault Refusal := (semSts rs base off).run s

/-! ## System registers (R94 to R96) -/

/-- The groups that list a core, in rising order (R268). -/
def State.coreGroups (s : State) (n : CoreNo) : List Nat :=
  (List.range 256).filter fun g => (tget 0 (64 * g + n.toNat / 64) s.groupMap).getLsbD (n.toNat % 64)

/-- SR_GROUPS of a core (R257, R268). -/
def State.srGroups (s : State) (n : CoreNo) : Word :=
  let gs := (s.coreGroups n).take 4
  word (ofBytes ((gs.map fun g => BitVec.ofNat 8 g) ++ List.replicate (4 - gs.length) 0) + 2 ^ 32 * (2 ^ gs.length - 1))

/-- SR_BUDGET.REMAIN at the present clk (R257, R277). -/
def State.remain (s : State) (b : Budget) : Nat := if b.counting then b.remain - (s.clk - b.since) else b.remain

/-- Whether a budget has reached zero by a clk (R277). -/
def Budget.due (b : Budget) (clk : Nat) : Bool := b.counting && !b.off && decide (b.since + b.remain ≤ clk)

/-- A budget as it stands at a clk: one that has reached zero stays there (R277). -/
def Budget.settle (b : Budget) (clk : Nat) : Budget := if b.due clk then { b with remain := 0, counting := false } else b

/-- SR_CORE (R95): the core number, and the module's coordinates. -/
def State.srCore (s : State) (n : CoreNo) : Word := word (n.toNat + s.torus.coord.toNat % 4096 * 65536)

/-- SR_TASK (R257). -/
def Share.srTask (x : Share) : Word :=
  word (x.task % 2 ^ 32 + 2 ^ 32 * b2n x.held + 2 ^ 33 * b2n x.early + 2 ^ 34 * b2n x.abf)

/-- The value of a system register of the issuing context (R94). -/
def State.srRead (s : State) (sr : Nat) : Word :=
  let c := s.me
  match sr with
  | 0x000 => s.srCore s.myCore
  | 0x001 => word ((keyCtx s.iss.key).toNat + 256 * b2n s.iss.evt)
  | 0x002 => word (b2n c.sys)
  | 0x003 => word s.clk
  | 0x004 => c.share.srTask
  | 0x005 => c.share.tag.setWidth 64
  | 0x006 => s.srGroups s.myCore
  | 0x007 => word (s.remain c.budget % 2 ^ 48 + 2 ^ 48 * b2n c.budget.off)
  | 0x010 => s.iss.stat.fpstat
  | 0x011 => s.iss.stat.optstat
  | 0x012 => s.iss.stat.rndseed
  | 0x013 => s.iss.stat.rndctr
  | 0x020 => s.iss.tr.cause
  | 0x021 => s.iss.tr.epc
  | 0x022 => s.iss.tr.emask
  | 0x023 => s.iss.tr.eaddr
  | 0x024 => s.iss.tr.einfo
  | 0x030 => s.funcready
  | _ => 0

/-- The writable bits of a system register (R68, R70, R127, R339). -/
def srWritable (sr : Nat) : Word :=
  match sr with
  | 0x010 => 0x3F
  | 0x011 => 0x0000FFFFFFFF0001
  | 0x012 | 0x013 | 0x023 | 0x024 => BitVec.allOnes 64
  | 0x020 => 0x7FF
  | 0x021 => 0x807FFFFFFFFFFFFF
  | 0x022 => 0x3F
  | _ => 0

/-- A system register of a context written under each field's access (R94). -/
def Ctx.srWrite (c : Ctx) (sr : Nat) (v : Word) : Ctx :=
  let v := v &&& srWritable sr
  match sr with
  | 0x010 => { c with stat := { c.stat with fpstat := v } }
  | 0x011 => { c with stat := { c.stat with optstat := v } }
  | 0x012 => { c with stat := { c.stat with rndseed := v } }
  | 0x013 => { c with stat := { c.stat with rndctr := v } }
  | 0x020 => { c with tr := { c.tr with cause := v } }
  | 0x021 => { c with tr := { c.tr with epc := v } }
  | 0x022 => { c with tr := { c.tr with emask := v } }
  | 0x023 => { c with tr := { c.tr with eaddr := v } }
  | 0x024 => { c with tr := { c.tr with einfo := v } }
  | _ => c

/-- The registers that only system mode reaches (R94, R339). -/
def srSysOnly (sr : Nat) : Bool := decide (0x020 ≤ sr) && decide (sr ≤ 0x024)

/-- The protection trap of an access outside system mode (R94). -/
def State.srFault (s : State) (sr : Nat) : Option TrapInfo :=
  if srSysOnly sr && !s.me.sys then some { code := 8 } else none

/-- SRGET: x[rd] := the register as of the issue clk (R94). -/
def semSrget (rd : XReg) (sr : BitVec 12) : Sem := 
  { fault := fun s => s.srFault sr.toNat, eff := fun s => s.wx rd (s.srRead sr.toNat) }
/-- SRGET. -/
def execSrget (rd : XReg) (sr : BitVec 12) (s : State) : Outcome State Fault Refusal := (semSrget rd sr).run s

/-- The flags of M operations that complete on the clk of an SRSET of SR_FPSTAT are ORed in after the write (R69). -/
def Ctx.keepLate (c : Ctx) (sr clk : Nat) : Ctx :=
  if sr = 0x010 ∧ c.late.1 = clk then { c with stat := { c.stat with fpstat := c.stat.fpstat ||| c.late.2 } } else c

/-- SRSET: the register written under each field's access (R94, R69). -/
def semSrset (sr : BitVec 12) (rs : XReg) : Sem := 
  { fault := fun s => s.srFault sr.toNat
    eff := fun s => s.mapMe fun c => (c.srWrite sr.toNat (s.rx rs)).keepLate sr.toNat s.clk }
/-- SRSET. -/
def execSrset (sr : BitVec 12) (rs : XReg) (s : State) : Outcome State Fault Refusal := (semSrset sr rs).run s

/-! ## Events (R99, R100) -/

/-- The WFE bundle of the present mode that has parked (R99). -/
def Ctx.wfeRec (c : Ctx) : Option (BitVec 55 × Nat) := if c.sys then c.wfeSys else c.wfe
/-- The record of the present mode set. -/
def Ctx.setWfe (c : Ctx) (r : Option (BitVec 55 × Nat)) : Ctx :=
  if c.sys then { c with wfeSys := r } else { c with wfe := r }

/-- Whether `timeout` clk have passed since a bundle with a WFE first parked (R99). -/
def Ctx.wfeExpired (c : Ctx) (pcb : BitVec 55) (clk timeout : Nat) : Bool :=
  match c.wfeRec with
  | some (p, t) => p == pcb && decide (timeout ≠ 0) && decide (t + timeout ≤ clk)
  | none => false

/-- The first park of a bundle with a WFE (R99). -/
def Ctx.notePark (c : Ctx) (pcb : BitVec 55) (clk : Nat) : Ctx :=
  match c.wfeRec with
  | some (p, _) => if p = pcb then c else c.setWfe (some (pcb, clk))
  | none => c.setWfe (some (pcb, clk))

/-- WFE: waits on the event latch, then reads and clears it (R99; DESIGN CHOICE, log 22). -/
def semWfe (rd : XReg) (timeout : BitVec 32) : Sem :=
  { block := fun s =>
      if s.me.evt || s.me.wfeExpired s.iss.pcb s.clk timeout.toNat then [] else [.event timeout]
    onPark := fun s => s.mapMe fun c => c.notePark s.iss.pcb s.clk
    eff := fun s => (s.wx rd (if s.me.evt then 1 else 0)).mapMe fun c => { c.setWfe none with evt := false } }
/-- WFE. -/
def execWfe (rd : XReg) (timeout : BitVec 32) (s : State) : Outcome State Fault Refusal := (semWfe rd timeout).run s

/-- WFE_TIMEOUT: the timeout of a parked WFE passes, and its context becomes ready (R98, R99). -/
def execWfeTimeout (k : CtxKey) (s : State) : Outcome State Fault Refusal :=
  match (s.ctx k).run, (s.ctx k).wfeRec with
  | .parked conds, some (_, t) =>
    if conds.any (fun c => match c with
        | .event n => decide (n ≠ 0) && decide (t + n.toNat ≤ s.clk)
        | _ => false) then
      .next ((s.mapCtx k fun c => { c with waking := true }).makeReady k)
    else .refused .notEnabled
  | _, _ => .refused .notEnabled

/-- Whether a context has been evaluated on this clk. An event that sets its EVT on that clk does so before the check, and so
comes ahead of the evaluation in the schedule (R99, R333). -/
def State.evaluated (s : State) (k : CtxKey) : Bool := (s.core (keyCore k)).evaled == some (s.clk, keyCtx k)

/-- The state after a move that sets the EVT of a context; none on the clk of an evaluation of it, after that (R99). -/
def State.signal (s : State) (k : CtxKey) (t : State) : Outcome State Fault Refusal :=
  if s.evaluated k then .refused .notEnabled else .next t

/-- Whether a context that a mask names has been evaluated on this clk. -/
def State.evaluatedAny (s : State) (n : CoreNo) (mask : BitVec 4) : Bool :=
  (List.range 4).any fun c => mask.getLsbD c && s.evaluated (mkKey n (BitVec.ofNat 2 c))

/-- EVT of the contexts of a core that a mask names set (R99, R100). -/
def State.setEvents (s : State) (n : CoreNo) (mask : BitVec 4) : State :=
  [(0 : Nat), 1, 2, 3].foldl (fun s c =>
    if mask.getLsbD c then s.mapCtx (mkKey n (BitVec.ofNat 2 c)) fun x => { x with evt := true } else s) s

/-- SEV: EVT of each masked context of the own core set (R100; DEDUCED, log 41). -/
def semSev (mask : BitVec 4) : Sem := { eff := fun s => s.setEvents s.myCore mask }
/-- SEV. -/
def execSev (mask : BitVec 4) (s : State) : Outcome State Fault Refusal := (semSev mask).run s

/-- The cluster of a core is ready (R183, R357). -/
def State.clusterReady (s : State) (n : CoreNo) : Bool := tget false (coreCluster n) s.clReady

/-- A core's messages are at their limit of 64 (R183). -/
def State.msgStall (s : State) : Option State := if 64 ≤ (s.core s.myCore).msgs.length then some s else none

/-- The protection trap of a message to a core whose cluster is not ready (R183, R340). -/
def State.msgFault (s : State) (dst : CoreNo) (ea : Word) : Option TrapInfo :=
  if s.clusterReady dst then none else some { code := 8, eaddr := ea, einfo := dst.setWidth 64 }

/-- A message sent by the issuing context (R183). The store buffer, which R186 lets merge a STROWR with the next one,
never merges here (DESIGN CHOICE, log 52). -/
def State.send (s : State) (dst : CoreNo) (kind : MsgKind) (acq : Bool) : State :=
  let m : Msg := { num := s.me.acc, key := s.iss.key, dst := dst, kind := kind, acq := acq, reply := none }
  (s.mapCore s.myCore fun co => { co with msgs := co.msgs ++ [m] }).mapMe fun c => { c with acc := c.acc + 1 }

/-- SEV_REMOTE: a message that sets EVT of the masked contexts of core x[rs][11:0]; an empty mask sends nothing (R100, R183). -/
def semSevRemote (rs : XReg) (mask : BitVec 4) : Sem := 
  { fault := fun s => if mask = 0 then none else s.msgFault ((s.rx rs).setWidth 12) 0
    hold := fun s => mask != 0 && s.acquiring
    stall := fun s => if mask = 0 then none else s.msgStall
    sends := fun _ => if mask = 0 then 0 else 1
    eff := fun s => if mask = 0 then s else s.send ((s.rx rs).setWidth 12) (.sev mask) false }
/-- SEV_REMOTE. -/
def execSevRemote (rs : XReg) (mask : BitVec 4) (s : State) : Outcome State Fault Refusal := (semSevRemote rs mask).run s

end Sys2Proof.Machine
end

