-- ==== Sys2Proof/Machine/Staging.lean ====
section
/-! DEFINITION. Pending writes on their way to the memory agents: migration windows, the limit of staged blocks, probe
writebacks and the writes of engines (R203, R204, R208, R217, R220). -/

namespace Sys2Proof.Machine

/-- The translation unit of a context (DEDUCED, log 25). -/
def unitOf (k : CtxKey) : Nat := coreDie (keyCore k)

/-! ## Migration windows (R208; DEDUCED, log 45) -/

/-- Whether a page is in a migration window for a translation unit: one that is open, or one that the unit's entry shows
before the TLBINV that opens it has completed (R202). -/
def State.pageMig (s : State) (u page : Nat) : Bool :=
  s.migOpen.contains page || (match s.pte u (page * 2 ^ 21) with
  | some e => pteMig e
  | none => false)

/-- Whether the page of a virtual address is in a migration window for a context. -/
def State.inWindow (s : State) (k : CtxKey) (va : Nat) : Bool := s.pageMig (unitOf k) (va / 2 ^ 21)

/-- The pages that a write of n bytes reaches. -/
def pagesOf (va n : Nat) : List Nat := ((blockPieces va n).map fun p => p.1 / 2 ^ 21).eraseDups

/-- The window of a page open. -/
def State.openWindow (s : State) (page : Nat) : State :=
  if s.migOpen.contains page then s else { s with migOpen := page :: s.migOpen }

/-- A write held, behind those that reached the page before it. -/
def State.holdWrite (s : State) (src : WriteSrc) (page : Nat) : State :=
  if s.migHeld.contains ⟨src, page⟩ then s else { s with migHeld := s.migHeld ++ [⟨src, page⟩] }

/-- A write to pages in windows held, which are open from then on. -/
def State.holdIn (s : State) (src : WriteSrc) (pages : List Nat) : State :=
  pages.foldl (fun s p => (s.holdWrite src p).openWindow p) s

/-- The context that a held write is made for. -/
def WriteSrc.owner : WriteSrc → Option CtxKey
  | .commit k _ | .writeback k | .drain k _ | .copy k _ _ | .scatter k _ | .amog k _ | .coll k _ => some k
  | .jcb .. | .entry .. | .peer _ | .host => none

/-- The address at which a peer queue takes its next packet. -/
def LaunchQ.slotVA (x : LaunchQ) : Nat := x.base + 64 * (x.wp.toNat % x.size)

/-- Whether a message is an entry of a ROUTE of a module. -/
def LinkMsg.isEntry (m : LinkMsg) (src : BitVec 12) (k : CtxKey) (num id : Nat) : Bool :=
  match m with
  | .entry m k' num' id' _ _ _ _ => m == src && k' == k && num' == num && id' == id
  | _ => false

/-- Whether a held write is still to be made: a discard, a reset or the end of a binding takes it away. -/
def State.heldLive (s : State) (w : HeldWrite) : Bool :=
  match w.src with
  | .commit k e => (s.ctx k).releases.any fun r => r.epoch == e
  | .writeback k => (s.ctx k).unstaged.any fun u => u.why == .window && u.va / 2 ^ 21 == w.page
  | .drain k sn => let x := (s.ctx k).stream sn; x.bound && x.kind != 0 && x.held.isNone && decide (x.drained < x.pos)
  | .copy k d ch => let x : CopyChan := tget {} ch.toNat (s.die d).chans; x.owner == k && x.st == .walking
  | .scatter k id => (s.core (keyCore k)).gathers.any fun g => g.id == id && !g.held
  | .amog k n => (s.ctx k).amogs.any fun a => a.num == n && !a.held
  | .coll k i => (tget {} i (s.ctx k).colls : CollSlot).begun
  | .jcb .. => true
  | .entry src k num id => s.inbox.any fun m => m.isEntry src k num id
  | .peer src => match s.peers.find? (fun p => p.src == src) with
    | some p => let x : LaunchQ := tget {} (64 + p.q.toNat) s.queues; x.slotVA / 2 ^ 21 == w.page
    | none => false
  | .host => !s.bar2.isEmpty

/-! ## Writebacks (R217) -/

/-- The fault of a commit or writeback posted (R203, R340). -/
def State.postCommit (s : State) (k : CtxKey) (code va ea : Nat) (op : HeldOp) : State :=
  s.post k { code := code, eaddr := word ea, einfo := engInfo 8 0 (va % 2 ^ 21 / 256) } 8 (some op)

/-- A writeback kept, for a reason. -/
def State.keepBlock (s : State) (k : CtxKey) (w : Unstaged) : State :=
  s.mapCtx k fun c => { c with unstaged := c.unstaged ++ [w] }

/-- A writeback made a pending write, its page being in no window (R217, R220): staged, or kept where the translation
faults (R203) or there is no room (R220). -/
def State.stageBlock (s : State) (k : CtxKey) (w : Unstaged) : State :=
  let u := unitOf k
  match s.translate u w.va .write with
  | .error code => ((s.cache u w.va).keepBlock k { w with why := .fault }).postCommit k code w.va w.va (.commit w.va)
  | .ok e =>
    let s := s.cache u w.va
    if s.stageRoom u k w.va 1 then
      s.mapCtx k fun c =>
        { c with staged := addStaged c.staged (pteByte e w.va / 256) w.va ⟨w.epoch, w.mask, w.data⟩ }
    else s.keepBlock k { w with why := .room }

/-- The writebacks of a context to a page that a window held are made pending writes (R208). -/
def State.restagePage (s : State) (k : CtxKey) (page : Nat) : State :=
  let hit := fun (u : Unstaged) => u.why == .window && u.va / 2 ^ 21 == page
  let go := (s.ctx k).unstaged.filter hit
  go.foldl (fun s u => s.stageBlock k u) (s.mapCtx k fun c => { c with unstaged := c.unstaged.filter fun u => !hit u })

/-- Bytes that a dispatcher writes into a control block committed; a write that faults is dropped, with an event (R262). -/
def State.jcbPut (s : State) (d k va : Nat) (bs : List Byte) : State :=
  match s.writeFault d va bs.length, s.readVA d none va bs.length with
  | none, .ok _ => s.commitBytes d va bs
  | some f, _ => s.event 3 (d * 4096 + k) (f.2 % 2 ^ 32)
  | none, .error f => s.event 3 (d * 4096 + k) (f.2 % 2 ^ 32)

/-- The held writes of a page taken in the order of their arrival, as far as they are writebacks and writes of dispatchers:
these are replayed at once, and the others when they are next tried (R208). -/
def State.settleHeld (s : State) : List HeldWrite → State
  | [] => s
  | w :: r =>
    let drop := { s with migHeld := s.migHeld.erase w }
    if !s.heldLive w then drop.settleHeld r
    else match w.src with
      | .writeback k => if s.pageMig (unitOf k) w.page then s else (drop.restagePage k w.page).settleHeld r
      | .jcb d k va bs => if s.pageMig d w.page then s else (drop.jcbPut d k va bs).settleHeld r
      | _ => s

/-- The held writes of a page as far as `settleHeld` takes them. -/
def State.settlePage (s : State) (page : Nat) : State := s.settleHeld (s.migHeld.filter fun w => w.page == page)

/-- Every page that holds writes, and the writebacks of a context that wait for room (R208, R220). -/
def State.settle (s : State) (k : CtxKey) : State :=
  let s := ((s.migHeld.map (·.page)).eraseDups).foldl (fun s p => s.settlePage p) s
  let go := (s.ctx k).unstaged.filter fun u => u.why == .room
  go.foldl (fun s u => s.stageBlock k u)
    (s.mapCtx k fun c => { c with unstaged := c.unstaged.filter fun u => u.why != .room })

/-- Whether the first held write of a page that is still to be made is this one, or there is none. -/
def State.firstHeld (s : State) (src : WriteSrc) (page : Nat) : Bool :=
  match s.migHeld.find? (fun w => w.page == page && s.heldLive w) with
  | some w => w.src == src
  | none => true

/-- A dispatcher's write to one page: behind the writes that the page holds, or made (R208). -/
def State.jcbPage (s : State) (d k va : Nat) (bs : List Byte) : State :=
  let page := va / 2 ^ 21
  let s := s.settlePage page
  let hold : State := { s with migHeld := s.migHeld ++ [⟨.jcb d k va bs, page⟩] }
  if s.pageMig d page then hold.openWindow page
  else if s.migHeld.any fun w => w.page == page && s.heldLive w then hold
  else s.jcbPut d k va bs

/-- A write that reaches pages: held while one is in a window, and replayed in the order of arrival after it (R208). The
state to go on in, in which it keeps its place, or the state in which the write is held; none where an earlier write goes
first. -/
def State.migPass (s : State) (src : WriteSrc) (u : Nat) (pages : List Nat) : Option (Bool × State) :=
  let shut := pages.filter (s.pageMig u)
  if !shut.isEmpty then some (true, s.holdIn src shut)
  else
    let s := pages.foldl (fun s p => s.settlePage p) s
    if pages.all (s.firstHeld src) then some (false, s) else none

/-- A held write made: it leaves the order of the pages. -/
def State.leaveHeld (s : State) (src : WriteSrc) (pages : List Nat) : State :=
  { s with migHeld := s.migHeld.filter fun w => !(w.src == src && pages.contains w.page) }

/-- The same for a write that is then made whole: it leaves the order of its pages. -/
def State.migGate (s : State) (src : WriteSrc) (u : Nat) (pages : List Nat) : Option (Bool × State) :=
  (s.migPass src u pages).map fun r => if r.1 then r else (false, r.2.leaveHeld src pages)

/-- A writeback of the bytes of a mask to a virtual block (R217): a pending write, or held behind a window (R208). -/
def State.pendBlock (s : State) (k : CtxKey) (va : Nat) (mask : Row256) (data : Row) (epoch : Nat) : State :=
  let w : Unstaged := { va := va, mask := mask, data := data, epoch := epoch, why := .window }
  match s.migGate (.writeback k) (unitOf k) [va / 2 ^ 21] with
  | some (false, s) => s.stageBlock k w
  | some (true, s) => (s.cache (unitOf k) va).keepBlock k w
  | none => (s.holdWrite (.writeback k) (va / 2 ^ 21)).keepBlock k w

/-- A probe slot. -/
def ProbeSet.slot (p : ProbeSet) (i : Nat) : ProbeSlot := tget {} i p.slots
/-- A probe slot set. -/
def ProbeSet.setSlot (p : ProbeSet) (i : Nat) (x : ProbeSlot) : ProbeSet := { p with slots := tput {} i x p.slots }

/-- The writeback of the bytes of a mask of a row: an uncorrectable error of the row holds it, with the row's address in
SR_EADDR (R175, R203, R217). -/
def State.writebackRow (s : State) (k : CtxKey) (va : Nat) (mask : Row256) (core row ea epoch : Nat) : State :=
  let data := s.localRow core row
  if s.rowBad core row 0 256 then
    (s.keepBlock k { va := va, mask := mask, data := data, epoch := epoch, why := .row core row }).postCommit k 14 va ea
      (.commit va)
  else s.pendBlock k va mask data epoch

/-- The writeback of a slot of a context (R217); nothing where it is clean. A row of an INVALID slot that has been written is
written back under the tag that an INVALID slot holds, which is 0: R217 names no block for it (DESIGN CHOICE, log 60). -/
def State.writeback (s : State) (k : CtxKey) (i : Nat) (epoch : Nat) : State :=
  let p := (s.ctx k).probe
  let x := p.slot i
  let pl := rowPlace (s.isFused (keyCore k)) (keyCore k) (p.srow + i)
  if x.dirty = 0 then s
  else (s.mapCtx k fun c => { c with probe := c.probe.setSlot i { x with dirty := 0 } }).writebackRow k x.tag x.dirty
    pl.1 pl.2 (256 * (p.srow + i)) epoch

/-- Whether a writeback of a slot must wait for room among the 1,024 staged blocks (R220). -/
def State.wbWaits (s : State) (k : CtxKey) (i : Nat) : Bool :=
  let x := (s.ctx k).probe.slot i
  x.dirty != 0 && !s.stageRoom (unitOf k) k x.tag 1

/-! ## Writes by engines (R204, R220) -/

/-- What became of a write: made; a fault; or it waits, for a migration window or for room. -/
inductive WriteEnd where
  | done (s : State)
  | fault (code ea : Nat)
  | waits (s : State)

/-- A pending write of n bytes by an engine on a context's behalf (R204, R208, R220). -/
def State.engineWrite (s : State) (src : WriteSrc) (u : Nat) (k : CtxKey) (va : Nat) (bs : List Byte) (epoch : Nat) :
    WriteEnd :=
  match s.writeFault u va bs.length with
  | some (code, ea) => .fault code ea
  | none =>
    if !s.stageRoom u k va bs.length then .waits s
    else match s.migGate src u (pagesOf va bs.length) with
      | none => .waits s
      | some (true, s) => .waits s
      | some (false, s) => .done (s.stageBytes u k va bs epoch)

/-! ## Reads ahead (R222, R229, R243) -/

/-- A read of block b that sees `n` completed records: of the chains whose records lie in it, the reads ahead of earlier
records that were made before these completed are no longer used (R229, R243). -/
def State.observe (s : State) (k : CtxKey) (b n : Nat) : State :=
  let seen := (s.recs.take n).zipIdx
  let last := fun (chain : Nat) => (seen.filter fun e => e.1.1 == chain && e.1.2 == b).getLast?.map (·.2)
  let stale := fun (x : Sample) => seen.any fun e => e.1.2 == x.blk && decide (x.seen ≤ e.2) &&
    (match last e.1.1 with | some i => decide (e.2 < i) | none => false)
  s.mapCtx k fun c => if c.samples.isEmpty then c else { c with samples := c.samples.filter fun x => !stale x }

/-- The reads ahead that a fill of n bytes uses up, and what it observes (R222, R243). -/
def State.useSamples (s : State) (u : Nat) (k : CtxKey) (va n : Nat) : State :=
  (blockPieces va n).foldl (fun s p =>
    match s.pte u p.1 with
    | none => s
    | some e =>
      let b := pteByte e p.1 / 256
      match (s.ctx k).samples.find? (fun x => x.blk == b) with
      | some x => (s.mapCtx k fun c => { c with samples := c.samples.erase x }).observe k b x.seen
      | none => s.observe k b s.recs.length) s

/-- A fill of n bytes that reads the blocks now (R191), and what it observes. -/
def State.observeNow (s : State) (u : Nat) (k : CtxKey) (va n : Nat) : State :=
  (blockPieces va n).foldl (fun s p =>
    match s.pte u p.1 with
    | none => s
    | some e => s.observe k (pteByte e p.1 / 256) s.recs.length) s

end Sys2Proof.Machine
end

