-- ==== Sys2Proof/Machine/Streams.lean ====
section
/-! DEFINITION. Streams (R188 to R197): binding, advancing, filling, draining. -/

namespace Sys2Proof.Machine

open Host (Outcome)

/-! ## Descriptors (R189, R190) -/

/-- A(s): the global address of pattern slot `i` (R189). -/
def Stream.addr (x : Stream) (i : Nat) : Nat :=
  let i0 := i % x.n0
  let i1 := i / x.n0 % x.n1
  let i2 := i / (x.n0 * x.n1) % x.n2
  let i3 := i / (x.n0 * x.n1 * x.n2)
  (((x.gbase : Int) + 16 * (i0 * x.s0 + i1 * x.s1 + i2 * x.s2 + i3 * x.s3)) % (2 : Int) ^ 56).toNat

/-- A little-endian field of a descriptor. -/
def dfield (l : List Byte) (lo n : Nat) : Nat := ofBytes ((l.drop lo).take n)

/-- Whether a stream descriptor holds no reserved value (R189). -/
def descOk (l : List Byte) : Bool :=
  decide (dfield l 0 8 % 16 = 0) && decide (dfield l 7 1 = 0) &&
    [24, 26, 28, 30].all (fun o => decide (dfield l o 2 ≠ 0)) && decide (dfield l 35 1 < 16) &&
    decide (dfield l 36 1 < 3) && (decide (dfield l 36 1 ≠ 2) || decide (dfield l 35 1 = 15)) &&
    decide (ofBytes (l.drop 37) = 0)

/-- The binding of a descriptor (R189). -/
def descStream (l : List Byte) : Stream :=
  { bound := true, kind := dfield l 36 1, gbase := dfield l 0 8,
    s0 := toI 32 (dfield l 8 4), s1 := toI 32 (dfield l 12 4), s2 := toI 32 (dfield l 16 4),
    s3 := toI 32 (dfield l 20 4), n0 := dfield l 24 2, n1 := dfield l 26 2, n2 := dfield l 28 2, n3 := dfield l 30 2,
    brow := dfield l 32 2, ns := dfield l 34 1 + 1, len := 16 * (dfield l 35 1 + 1) }

/-- The bytes 36:0 of a descriptor, as CTXSAVE writes them (R346). -/
def Stream.descBytes (x : Stream) : List Byte :=
  toBytes 8 x.gbase ++ toBytes 4 (ofI 32 x.s0) ++ toBytes 4 (ofI 32 x.s1) ++ toBytes 4 (ofI 32 x.s2) ++
    toBytes 4 (ofI 32 x.s3) ++ toBytes 2 x.n0 ++ toBytes 2 x.n1 ++ toBytes 2 x.n2 ++ toBytes 2 x.n3 ++
    toBytes 2 x.brow ++ toBytes 1 (x.ns - 1) ++ toBytes 1 (x.len / 16 - 1) ++ toBytes 1 x.kind

/-- The range fault of n rows from a row: the address of the first row beyond the extent (R173, R190, R235). It is the
address of a row where the register that names the rows has nonzero low bits, too (DESIGN CHOICE, log 54). -/
def State.rowsFault (s : State) (n : CoreNo) (row cnt : Nat) : Option TrapInfo :=
  if (row + cnt) * 256 ≤ s.extent n then none
  else some { code := 9, eaddr := word (max (row * 256) (s.extent n)) }

/-- The 64-byte block that an address names (R189, R246, R258): bytes [64q + 63 : 64q] of its row. -/
def State.block64At (s : State) (n : CoreNo) (ea : Word) : List Byte :=
  rowBytes (s.row n (ea.toNat / 256)) (ea.toNat % 256 / 64 * 64) 64

/-- The faults of reading the 64-byte block of an address at issue (R173, R175): an uncorrectable error is taken at issue, as
by LDS and LDROW, by every instruction that reads its descriptor so, which R175 does not name (DESIGN CHOICE, log 51). -/
def State.blockFault (s : State) (ea : Word) : Option TrapInfo :=
  s.rowFault ea (ea.toNat % 256 / 64 * 64) (ea.toNat % 256 / 64 * 64 + 64)

/-! ## Ending a binding (R196) -/

/-- A partial tail row of an outlier list passes to the storer (R193, R196). -/
def Stream.handOff (x : Stream) : Stream :=
  if x.kind = 2 ∧ x.recs ≠ 0 then
    { x with part := x.part ++ [(x.pos, 8 * x.recs)], pos := x.pos + 1, tail := (x.tail + 1) % x.ns, recs := 0 }
  else x

/-- Whether the storer still owes drains that SUNBIND waits for (R196). -/
def Stream.owes (x : Stream) : Bool := x.bound && x.kind != 0 && x.held.isNone && decide (x.drained < x.handOff.pos)

/-- Whether a held operation is a transfer of a stream. -/
def HeldOp.ofStream (sn : SReg) : HeldOp → Bool
  | .fill t _ => t == sn
  | .drain t _ => t == sn
  | _ => false

/-- The binding of a stream register ended: its held transfer is dropped, and no release waits for its drains any more
(R196, R221). An optimiser output still due is written into its row all the same (R126). -/
def Ctx.unbind (c : Ctx) (sn : SReg) : Ctx :=
  let drop := fun (h : Option HeldOp) => match h with
    | some o => if o.ofStream sn then none else some o
    | none => none
  { c.setStream sn {} with
    held := drop c.held
    pend := c.pend.map fun f => { f with held := drop f.held }
    releases := c.releases.map fun r => { r with drains := r.drains.filter fun d => d.1 != sn } }

/-- SUNBIND stalls until every advanced slot has been drained; a partial row is first handed over (R196). -/
def State.unbindStall (s : State) (sn : SReg) : Option State :=
  if (s.me.stream sn).owes then
    some ((s.mapMe fun c => c.setStream sn (c.stream sn).handOff).noteDue s.iss.key sn)
  else none

/-! ## The instructions -/

/-- SBIND: checks the descriptor, ends the old binding and binds sn (R189, R190). A record or slot that a V slot of the same
bundle appends or advances goes with the old binding, undrained (DESIGN CHOICE, log 58). -/
def semSbind (sn : SReg) (base : XReg) (off : BitVec 32) : Sem :=
  ({ fault := fun s =>
      match s.blockFault (s.ea base off) with
      | some t => some t
      | none =>
        let l := s.block64At s.myCore (s.ea base off)
        if !descOk l then some { code := 10 } else s.rowsFault s.myCore (descStream l).brow (descStream l).ns
     stall := fun s => s.unbindStall sn
     eff := fun s =>
       let x := descStream (s.block64At s.myCore (s.ea base off))
       s.mapMe fun c => (c.unbind sn).setStream sn x } : Sem).onRow
/-- SBIND. -/
def execSbind (sn : SReg) (base : XReg) (off : BitVec 32) (s : State) : Outcome State Fault Refusal :=
  (semSbind sn base off).run s

/-- SUNBIND ends the binding of sn (R196). A record or slot that a V slot of the same bundle appends or advances goes with the
binding, undrained (DESIGN CHOICE, log 58). -/
def semSunbind (sn : SReg) : Sem :=
  { stall := fun s => s.unbindStall sn, eff := fun s => s.mapMe fun c => c.unbind sn }
/-- SUNBIND. -/
def execSunbind (sn : SReg) (s : State) : Outcome State Fault Refusal := (semSunbind sn).run s

/-- The stream protocol fault of SADV (`adv`) and SWAIT (R194). -/
def Stream.countFault (x : Stream) (adv : Bool) (n : Nat) : Option TrapInfo :=
  if !x.bound || x.kind == 2 || decide (x.ns < n) || (adv && decide (x.left < n)) then some protocolFault else none

/-- The tail moved on by n slots, which pass to the storer (R194). -/
def Stream.advance (x : Stream) (n : Nat) : Stream := { x with pos := x.pos + n, tail := (x.tail + n) % x.ns }

/-- SADV moves the head or tail on by N slots (R194). Its checks see the stream as it stands before the bundle, and its
effect the stream that the V slots leave (DESIGN CHOICE, log 58). -/
def semSadv (sn : SReg) (rs : XReg) (imm : BitVec 32) : Sem :=
  { fault := fun s => (s.me.stream sn).countFault true (s.countOf rs imm).toNat
    block := fun s =>
      let x := s.me.stream sn
      let n := (s.countOf rs imm).toNat
      if n = 0 then []
      else if x.kind = 0 then (if x.avail < n then [.inAvail sn n] else [])
      else if x.ns - x.pending < n then [.outFree sn n] else []
    eff := fun s =>
      let n := (s.countOf rs imm).toNat
      if n = 0 then s
      else if (s.me.stream sn).kind = 0 then s.mapMe fun c => c.setStream sn ((c.stream sn).consume n)
      else (s.mapMe fun c => c.setStream sn ((c.stream sn).advance n)).noteDue s.iss.key sn }
/-- SADV. -/
def execSadv (sn : SReg) (rs : XReg) (imm : BitVec 32) (s : State) : Outcome State Fault Refusal :=
  (semSadv sn rs imm).run s

/-- SWAIT blocks until N slots are filled or free (R194). -/
def semSwait (sn : SReg) (rs : XReg) (imm : BitVec 32) : Sem :=
  { fault := fun s => (s.me.stream sn).countFault false (s.countOf rs imm).toNat
    block := fun s =>
      let x := s.me.stream sn
      let n := (s.countOf rs imm).toNat
      if n = 0 then []
      else if x.kind = 0 then (if x.avail < min n x.left then [.inAvail sn (min n x.left)] else [])
      else if x.ns - x.pending < n then [.outFree sn n] else []
    eff := fun s => s }
/-- SWAIT. -/
def execSwait (sn : SReg) (rs : XReg) (imm : BitVec 32) (s : State) : Outcome State Fault Refusal :=
  (semSwait sn rs imm).run s

/-- Free record positions of an outlier list (R193, R195). -/
def Stream.freeRecords (x : Stream) : Nat := 32 * min (x.ns - x.pending) x.left - x.recs

/-- The status word of a bound stream (R195; DEDUCED, log 34). -/
def Stream.statusWord (x : Stream) : Word :=
  let avail := if x.kind = 0 then x.avail else if x.kind = 1 then x.ns - x.pending else x.freeRecords / 32
  let eos := if x.kind = 0 then decide (x.left ≤ x.avail) else x.left == 0
  word (x.row % 65536 + 65536 * (avail % 512) + 2 ^ 25 * b2n eos + 2 ^ 26 * b2n x.held.isSome + 2 ^ 27 * x.kind +
    2 ^ 31 * b2n x.bound)

/-- The value that SSTAT reads (R195). -/
def Stream.stat (x : Stream) (se : BitVec 2) : Word :=
  if !x.bound then 0
  else if se = 0 then x.statusWord
  else if se = 1 then word x.left
  else if x.kind = 2 then word x.eb else 0

/-- SSTAT reads the stream's state at issue, after what the V slots of its bundle do to it (R195; DESIGN CHOICE, log 58). -/
def semSstat (xd : XReg) (sn : SReg) (se : BitVec 2) : Sem := aluSem xd fun s => (s.me.stream sn).stat se
/-- SSTAT. -/
def execSstat (xd : XReg) (sn : SReg) (se : BitVec 2) (s : State) : Outcome State Fault Refusal :=
  (semSstat xd sn se).run s

/-! ## Outlier records (R78, R193) -/

/-- Whether a list has a free record (R193). -/
def Stream.hasRecord (x : Stream) : Bool := x.bound && x.kind == 2 && decide (0 < x.freeRecords)

/-- A record appended at the tail row; a full row advances the tail and passes to the storer (R78, R193). -/
def State.appendRecord (s : State) (k : CtxKey) (sn : SReg) (idx val : Nat) : State :=
  let x := (s.ctx k).stream sn
  let s := s.writeRow (keyCore k) x.row (byteRange (8 * x.recs) 8)
    (placeBytes (8 * x.recs) (toBytes 4 idx ++ toBytes 4 val))
  if x.recs = 31 then (s.mapCtx k fun c => c.setStream sn { x.advance 1 with recs := 0 }).noteDue k sn
  else s.mapCtx k fun c => c.setStream sn { x with recs := x.recs + 1 }

/-! ## The transfer unit (R191, R192, R197) -/

/-- The park conditions of a stream cleared by its fault (R197). -/
def RunState.clearStream (sn : SReg) : RunState → RunState
  | .parked l => .parked (l.map fun c => match c with
      | .inAvail t _ => if t = sn then .cleared else c
      | .outFree t _ => if t = sn then .cleared else c
      | _ => c)
  | r => r

/-- A stream's transfer faults and is held; the fault clears the stream's park conditions (R197, R203). -/
def State.holdStream (s : State) (k : CtxKey) (sn : SReg) (slot srce code ea : Nat) : State :=
  let op : HeldOp := if srce = 1 then .fill sn slot else .drain sn slot
  (s.mapCtx k fun c =>
    { c.setStream sn { c.stream sn with held := some slot } with run := c.run.clearStream sn }).post k
    { code := code, eaddr := word ea, einfo := engInfo srce sn.toNat slot } srce (some op)

/-- Whether the loader may fill a pattern slot; a replayed slot goes before every other (R191, R197, R278). -/
def Stream.fillable (x : Stream) (slot : Nat) : Bool :=
  x.bound && x.kind == 0 && !x.token && decide (x.pos ≤ slot) && decide (slot < x.pos + x.ns) &&
    decide (slot < x.total) && !x.filled.contains slot &&
    (match x.held with | none => true | some h => decide (slot < h)) &&
    (match x.again with | none => true | some h => decide (slot ≤ h))

/-- The fill of a pattern slot made and delivered: L bytes, then zeros, in one action; or its fault held. The fill reads
what is committed at this instant (R191, R363, R365). -/
def State.fillSlot (s : State) (k : CtxKey) (sn : SReg) (slot : Nat) : State :=
  let x := (s.ctx k).stream sn
  let u := unitOf k
  let va := x.addr slot
  match s.readBytes u (s.nowBlk k) va x.len with
  | .error (code, ea) => (s.cacheN u va x.len).holdStream k sn slot 1 code ea
  | .ok (bs, _) =>
    let s := (s.cacheN u va x.len).observeNow u k va x.len
    (s.writeRow (keyCore k) (x.slotRow slot) fullMask (placeBytes 0 bs)).mapCtx k fun c =>
      let x := c.stream sn
      c.setStream sn { x with filled := slot :: x.filled, again := if x.again = some slot then none else x.again }

/-- STREAM_FILL: the loader fills a pattern slot (R191). -/
def execStreamFill (k : CtxKey) (sn : SReg) (slot : Nat) (s : State) : Outcome State Fault Refusal :=
  if ((s.ctx k).stream sn).fillable slot then .next (s.fillSlot k sn slot) else .refused .notEnabled

/-- The release to which the drain of a slot belongs (R221). -/
def Ctx.drainEpoch (c : Ctx) (sn : SReg) (slot : Nat) : Nat :=
  match c.releases.find? (fun r => r.drains.any fun d => d.1 == sn && decide (slot < d.2)) with
  | some r => r.epoch
  | none => c.epoch

/-- The bytes of a slot that the storer writes (R192, R196). -/
def Stream.drainLen (x : Stream) (slot : Nat) : Nat :=
  match x.part.find? fun e => e.1 == slot with
  | some (_, n) => min n x.len
  | none => x.len

/-- The clk from which the next slot of a stream has been eligible for the storer, where the storer is not stopped by a
held fault or by the limit of staged blocks (R192, R197, R220). -/
def State.drainClkOf (s : State) (k : CtxKey) (x : Stream) : Option Nat :=
  if x.bound && x.kind != 0 && x.held.isNone && decide (x.drained < x.pos) &&
      s.stageRoom (unitOf k) k (x.addr x.drained) (x.drainLen x.drained) then
    (x.elig.find? fun e => e.1 == x.drained).map (·.2)
  else none

/-- Whether a migration window, or an earlier write to the page, holds the next drain of a stream (R208). -/
def State.drainShut (s : State) (k : CtxKey) (sn : SReg) (x : Stream) : Bool :=
  (pagesOf (x.addr x.drained) (x.drainLen x.drained)).any fun p =>
    s.pageMig (unitOf k) p || !s.firstHeld (.drain k sn) p

/-- Whether the storer of a core, which reads at most one row per clk, in the order of eligibility, reads one of a stream
eligible from clk `t` (R192). -/
def State.drainTurn (s : State) (n : CoreNo) (t : Nat) : Bool :=
  decide (t < s.clk) && (s.core n).drainClk != some s.clk &&
    !((coreKeys n).any fun k => (s.ctx k).streams.any fun e =>
      match s.drainClkOf k e.2 with
      | some t' => decide (t' < t) && !s.drainShut k (BitVec.ofNat 4 e.1) e.2
      | none => false)

/-- STREAM_DRAIN: the storer reads the next advanced slot's row and stages its write (R192, R197, R220). A write to a
page in a migration window is held (R208); at 1,024 staged blocks the drain waits. -/
def execStreamDrain (k : CtxKey) (sn : SReg) (s : State) : Outcome State Fault Refusal :=
  let x := (s.ctx k).stream sn
  match s.drainClkOf k x with
  | none => .refused .notEnabled
  | some t =>
    if !s.drainTurn (keyCore k) t then .refused .notEnabled
    else
      let u := unitOf k
      let slot := x.drained
      let va := x.addr slot
      let n := x.drainLen slot
      let pl := rowPlace (s.isFused (keyCore k)) (keyCore k) (x.slotRow slot)
      let s := s.mapCore (keyCore k) fun co => { co with drainClk := some s.clk }
      if s.rowBad pl.1 pl.2 0 n then .next (s.holdStream k sn slot 2 14 (256 * (x.slotRow slot)))
      else match s.writeFault u va n with
        | some (code, ea) => .next ((s.cacheN u va n).holdStream k sn slot 2 code ea)
        | none =>
          match s.migGate (.drain k sn) u (pagesOf va n) with
          | none => .refused .notEnabled
          | some (true, s) => .next s
          | some (false, s) =>
            let bs := rowBytes (s.localRow pl.1 pl.2) 0 n
            let e := (s.ctx k).drainEpoch sn slot
            .next (((s.cacheN u va n).stageBytes u k va bs e).mapCtx k fun c =>
              let x := c.stream sn
              c.setStream sn { x with
                drained := slot + 1
                elig := x.elig.filter fun e => e.1 != slot
                due := x.due.filter fun e => e.1 != slot
                part := x.part.filter fun e => e.1 != slot })

end Sys2Proof.Machine
end

