-- ==== Sys2Proof/Machine/Scratch.lean ====
section
/-! DEFINITION. Scratchpad rows, bank atomics, remote messages and FENCE (R173 to R187, R100). -/

namespace Sys2Proof.Machine

open Host (Outcome)

/-! ## Row load and store (R180) -/

/-- LDROW: vd := row(EA), at issue for a row of the own core and later for one of another core of the fused cluster
(R176, R180). -/
def semLdrow (vd : VReg) (base : XReg) (off : BitVec 32) : Sem :=
  { fault := fun s => s.rowFault (s.ea base off) 0 256
    hold := State.acquiring
    eff := fun s =>
      if s.ownRow (s.ea base off) then
        let s := s.flush
        s.wv vd (s.row s.myCore ((s.ea base off).toNat / 256))
      else (s.pushFused (s.ea base off) (.load vd)).awaitV vd }
/-- LDROW. -/
def execLdrow (vd : VReg) (base : XReg) (off : BitVec 32) (s : State) : Outcome State Fault Refusal :=
  (semLdrow vd base off).run s

/-- STROW: the enabled lanes of row(EA) := those of vs (R180). -/
def semStrow (vs : VSrc) (base : XReg) (off : BitVec 32) (mk : MReg) : Sem :=
  ({ fault := fun s => ((s.srcFault [vs]).or (s.rangeFault (s.ea base off))).or (s.srcBad [vs])
     block := fun s => s.srcBlock [vs]
     hold := State.acquiring
     eff := fun s =>
       let s' := s.consume [vs]
       if s.ownRow (s.ea base off) then
         s'.flush.writeRow s.myCore ((s.ea base off).toNat / 256) (laneMask 4 (s.rm mk)) (s.src vs)
       else s'.pushFused (s.ea base off) (.store (laneMask 4 (s.rm mk)) (s.src vs)) } : Sem).onHeads [vs]
/-- STROW. -/
def execStrow (vs : VSrc) (base : XReg) (off : BitVec 32) (mk : MReg) (s : State) : Outcome State Fault Refusal :=
  (semStrow vs base off mk).run s

/-! ## Bank atomics (R182) -/

/-- AMO: one atomic update of row(EA); the old elements to vd unless NR (R182). -/
def semAmo (op : AmoOp) (w64 : Bool) (vd : VReg) (xa : XReg) (va vc : VReg) (mk : MReg) (nr : Bool) : Sem :=
  { fault := fun s => s.rowFault (s.rx xa) 0 256
    hold := State.acquiring
    eff := fun s =>
      if !s.ownRow (s.rx xa) then
        let s' := s.pushFused (s.rx xa) (.atomic op w64 vd (s.rv va) (s.rv vc) (s.rm mk) nr)
        if nr then s' else s'.awaitV vd
      else
      let s := s.flush
      let r := (s.rx xa).toNat / 256
      let old := s.row s.myCore r
      let m := s.rm mk
      let w := amoWidth w64
      let em := laneMask 4 (amoLanes w64 m)
      let s' := s.writeRow s.myCore r em (amoRow op w64 m old (s.rv va) (s.rv vc))
      if nr then s' else s'.wv vd (maskedRow w m (s.lv vd) fun e => elem w old e) }
/-- AMO. -/
def execAmo (op : AmoOp) (w64 : Bool) (vd : VReg) (xa : XReg) (va vc : VReg) (mk : MReg) (nr : Bool) (s : State) :
    Outcome State Fault Refusal := (semAmo op w64 vd xa va vc mk nr).run s

/-! ## Remote rows (R183 to R187) -/

/-- The faults of a message at issue: the range, then the readiness of the destination (R183). -/
def State.remoteFault (s : State) (dst : CoreNo) (ea : Word) : Option TrapInfo :=
  if ea.toNat < spadSize then s.msgFault dst ea else some { code := 9, eaddr := ea }

/-- LDROWR: a message that reads a row of core x[rs1] into vd (R183). -/
def semLdrowr (vd : VReg) (xc xa : XReg) (acq : Bool) : Sem :=
  { fault := fun s => s.remoteFault ((s.rx xc).setWidth 12) (s.rx xa)
    hold := State.acquiring
    stall := State.msgStall
    sends := fun _ => 1
    eff := fun s => (s.send ((s.rx xc).setWidth 12) (.load vd (s.rx xa).toNat) acq).awaitV vd }
/-- LDROWR. -/
def execLdrowr (vd : VReg) (xc xa : XReg) (acq : Bool) (s : State) : Outcome State Fault Refusal :=
  (semLdrowr vd xc xa acq).run s

/-- STROWR: a message that writes the enabled lanes of a row of core x[rs1] (R183, R185). -/
def semStrowr (vs : VSrc) (xc xa : XReg) (mk : MReg) (rel : Bool) : Sem :=
  ({ fault := fun s =>
       ((s.srcFault [vs]).or (s.remoteFault ((s.rx xc).setWidth 12) (s.rx xa))).or (s.srcBad [vs])
     block := fun s => s.srcBlock [vs]
     hold := State.acquiring
     stall := State.msgStall
     sends := fun _ => 1
     eff := fun s => (s.consume [vs]).send ((s.rx xc).setWidth 12)
       (.store (s.rx xa).toNat (s.rm mk) (s.src vs) rel) false } : Sem).onHeads [vs]
/-- STROWR. -/
def execStrowr (vs : VSrc) (xc xa : XReg) (mk : MReg) (rel : Bool) (s : State) : Outcome State Fault Refusal :=
  (semStrowr vs xc xa mk rel).run s

/-- AMOR: a message that performs an atomic at core x[rs1] (R181 to R183). -/
def semAmor (op : AmoOp) (w64 : Bool) (vd : VReg) (xc xa : XReg) (va vc : VReg) (mk : MReg) (nr acq : Bool) : Sem :=
  { fault := fun s => s.remoteFault ((s.rx xc).setWidth 12) (s.rx xa)
    hold := State.acquiring
    stall := State.msgStall
    sends := fun _ => 1
    eff := fun s =>
      let s' := s.send ((s.rx xc).setWidth 12)
        (.atomic op w64 vd (s.rx xa).toNat (s.rv va) (s.rv vc) (s.rm mk) nr) acq
      if nr then s' else s'.awaitV vd }
/-- AMOR. -/
def execAmor (op : AmoOp) (w64 : Bool) (vd : VReg) (xc xa : XReg) (va vc : VReg) (mk : MReg) (nr acq : Bool)
    (s : State) : Outcome State Fault Refusal := (semAmor op w64 vd xc xa va vc mk nr acq).run s

/-- Whether a message's destination lies within a scope of its source core (R187). -/
def inScope (sc : Scope) (n dst : CoreNo) : Bool :=
  match sc with
  | .cl => coreCluster n == coreCluster dst
  | .die => coreDie n == coreDie dst
  | .mod => true

/-- Whether a fused access of a context, or an optimiser output to a row of another core, has not taken effect
(R176, R187). -/
def Ctx.fusedPending (c : Ctx) (n : CoreNo) : Bool := !c.fused.isEmpty || c.outs.any fun o => o.core != n.toNat

/-- FENCE stalls until the context's earlier fused accesses, and its earlier messages within the scope, are complete
(R187). -/
def semFence (sc : Scope) : Sem :=
  { stall := fun s =>
      if s.me.fusedPending s.myCore ||
        (s.core s.myCore).msgs.any (fun m => m.key == s.iss.key && inScope sc s.myCore m.dst) then some s else none
    eff := fun s => s }
/-- FENCE. -/
def execFence (sc : Scope) (s : State) : Outcome State Fault Refusal := (semFence sc).run s

/-! ## The arrival of messages and replies (R182 to R186, R100) -/

/-- The place of the first message of a pair that has not taken effect (R184). -/
def State.nextMsg (s : State) (src dst : CoreNo) : Option (Nat × Msg) :=
  ((s.core src).msgs.zipIdx.find? fun e => e.1.dst == dst && e.1.reply.isNone).map fun e => (e.2, e.1)

/-- Whether a release may take effect: no earlier load or atomic of its context waits for its reply, and every earlier
store has taken effect, remote ones, fused ones and optimiser outputs (R185); it waits for the earlier fused loads too, which
R185 does not name (DESIGN CHOICE, log 11). -/
def State.releaseReady (s : State) (l : List Msg) (i : Nat) (m : Msg) : Bool :=
  !((l.take i).any fun e => e.key == m.key && (match e.kind with
      | .load _ _ => true
      | .atomic .. => true
      | .store .. => e.reply.isNone
      | .sev _ => false)) &&
    !((s.ctx m.key).fused.any fun o => decide (o.num < m.num)) &&
    !((s.ctx m.key).outs.any fun o => decide (o.num < m.num))

/-- The message in place i has taken its effect and carries a reply. -/
def State.answer (s : State) (src : CoreNo) (i : Nat) (r : Option Row) : State :=
  s.mapCore src fun co => { co with msgs := co.msgs.modify i (fun (m : Msg) => { m with reply := some r }) }

/-- An uncorrectable error met by a message: a fault of its context, and a reply that writes nothing (R175, DESIGN CHOICE, log 10). -/
def State.msgError (s : State) (src : CoreNo) (i : Nat) (k : CtxKey) (dst : CoreNo) (ea : Nat) : State :=
  let srce := Config.messageSrce s.fresh % 16
  let info : TrapInfo := { code := 14, eaddr := word ea, einfo := engInfo srce 0 dst.toNat }
  ((s.answer src i none).post k info srce none).bump

/-- The effect of a message at its destination, in one action (R176, R182). -/
def State.applyMsg (s : State) (src : CoreNo) (i : Nat) (m : Msg) : State :=
  let d := m.dst.toNat
  match m.kind with
  | .load _ ea =>
    if s.rowBad d (ea / 256) 0 256 then s.msgError src i m.key m.dst ea
    else s.answer src i (some (s.localRow d (ea / 256)))
  | .store ea mask data _ => (s.writeLocal d (ea / 256) (laneMask 4 mask) data false).answer src i none
  | .atomic op w64 _ ea va vc mask _ =>
    if s.rowBad d (ea / 256) 0 256 then s.msgError src i m.key m.dst ea
    else
      let old := s.localRow d (ea / 256)
      (s.writeLocal d (ea / 256) (laneMask 4 (amoLanes w64 mask)) (amoRow op w64 mask old va vc) false).answer src i
        (some old)
  | .sev mask => (s.setEvents m.dst mask).answer src i none

/-- REMOTE_MESSAGE_ARRIVAL: the next row message of the pair takes effect (R182 to R186). -/
def execRemoteMessageArrival (src dst : CoreNo) (s : State) : Outcome State Fault Refusal :=
  match s.nextMsg src dst with
  | none => .refused .notEnabled
  | some (i, m) =>
    match m.kind with
    | .sev _ => .refused .notEnabled
    | .store _ _ _ rel =>
      if rel && !s.releaseReady (s.core src).msgs i m then .refused .notEnabled else .next (s.applyMsg src i m)
    | _ => .next (s.applyMsg src i m)

/-- REMOTE_SEV_ARRIVAL: the next message of the pair, a remote SEV, sets the latches, ahead of an evaluation of their contexts
on the same clk (R99, R100). -/
def execRemoteSevArrival (src dst : CoreNo) (s : State) : Outcome State Fault Refusal :=
  match s.nextMsg src dst with
  | none => .refused .notEnabled
  | some (i, m) =>
    match m.kind with
    | .sev mask => if s.evaluatedAny m.dst mask then .refused .notEnabled else .next (s.applyMsg src i m)
    | _ => .refused .notEnabled

/-- A reply written to its vector register, for which the context still waits (R182, R183, R360). -/
def Ctx.takeReply (c : Ctx) (m : Msg) (r : Option Row) : Ctx :=
  match m.kind, r with
  | .load vd _, some v => c.deliverV vd fun _ => v
  | .load vd _, none => { c with vwait := c.vwait.erase vd }
  | .atomic _ w64 vd _ _ _ mask nr, r =>
    if nr then c
    else c.deliverV vd fun old => match r with
      | some v => maskedRow (amoWidth w64) mask old fun e => elem (amoWidth w64) v e
      | none => old
  | _, _ => c

/-- REMOTE_REPLY_ARRIVAL: the reply or acknowledgement of the message in place idx of a core arrives (R183). -/
def execRemoteReplyArrival (src : CoreNo) (idx : Nat) (s : State) : Outcome State Fault Refusal :=
  match (s.core src).msgs[idx]? with
  | none => .refused .notEnabled
  | some m =>
    match m.reply with
    | none => .refused .notEnabled
    | some r =>
      .next ((s.mapCore src fun co => { co with msgs := co.msgs.eraseIdx idx }).mapCtx m.key fun c => c.takeReply m r)

end Sys2Proof.Machine
end

