-- ==== Sys2Proof/Machine/Shares.lean ====
section
/-! DEFINITION. Task ids, groups, the abort entry and barrier episodes (R253, R268, R269, R272). -/

namespace Sys2Proof.Machine

/-! ## Task ids (R253) -/

/-- The id of a slot's task. -/
def taskId (die slot : Nat) (gen : BitVec 16) : Nat := slot + 4096 * die + 65536 * gen.toNat

/-- The task that an id names: its die, slot and record; none where the id is stale (R253). -/
def State.findTask (s : State) (id : Nat) : Option (Nat × Nat × Task) :=
  let d := bits id 12 3
  let k := bits id 0 12
  let t := tget {} k (s.die d).tasks
  if bits id 15 1 = 0 ∧ t.st ≠ .free ∧ t.gen.toNat = bits id 16 16 then some (d, k, t) else none

/-- A task slot changed. -/
def State.mapTask (s : State) (d k : Nat) (f : Task → Task) : State :=
  s.mapDie d fun x => { x with tasks := tmod {} k f x.tasks }

/-! ## Groups (R268) -/

/-- Whether group g lists a context: its core bit and its CTXMASK bit. -/
def State.listed (s : State) (g : BitVec 8) (k : CtxKey) : Bool :=
  (tget 0 (64 * g.toNat + (keyCore k).toNat / 64) s.groupMap).getLsbD ((keyCore k).toNat % 64) &&
    (tget 0 g.toNat s.groupMask).getLsbD (keyCtx k).toNat

/-- The member contexts of a group, in rising number. -/
def State.members (s : State) (g : BitVec 8) : List CtxKey :=
  (s.groupMap.filter fun e => e.1 / 64 == g.toNat).flatMap fun e =>
    (List.range 256).filterMap fun i =>
      let k : CtxKey := BitVec.ofNat 14 ((e.1 % 64) * 256 + i)
      if s.listed g k then some k else none

/-! ## The abort flag (R270 to R272) -/

/-- Whether a context's share samples the abort flag set for the first time in its instance (R272); one whose TDONE has issued
samples no more. -/
def State.abortDue (s : State) (k : CtxKey) : Bool :=
  let x := (s.ctx k).share
  x.held && !x.ending && !x.aborted && (match s.findTask x.task with | some (_, _, t) => t.abort | none => false)

/-- The cursor of the context's open chunk, or FIRST (R272). -/
def State.cursorOf (s : State) (k : CtxKey) : Nat :=
  let x := (s.ctx k).share
  match x.chunk, s.findTask x.task with
  | some c, some (_, _, t) =>
    (match t.open_.find? (fun e => e.idx == c.entry) with | some e => e.cursor | none => c.first)
  | _, _ => x.first

/-- The arrival of a bundle of the present mode (R269). -/
def Ctx.arrival (c : Ctx) : Option Arrival := if c.sys then c.arrivedSys else c.arrived
/-- The arrival of the present mode set. -/
def Ctx.setArrival (c : Ctx) (a : Option Arrival) : Ctx :=
  if c.sys then { c with arrivedSys := a } else { c with arrived := a }

/-- The entry of the abort code, taken in place of the sampling bundle (R272). A barrier at which that bundle had arrived
keeps the arrival, and a barrier of the abort code arrives anew (DESIGN CHOICE, log 59). -/
def State.enterAbort (s : State) (k : CtxKey) : State :=
  let x := (s.ctx k).share
  let abent := match s.findTask x.task with | some (_, _, { job := some c, .. }) => c.abent | _ => 0
  let cur := s.cursorOf k
  let s := s.mapCtx k fun c =>
    { (((c.wx 1 (word x.task)).wx 2 0).wx 3 (word cur)).setArrival none with
      share := { x with abf := true, aborted := true }, pc := BitVec.ofNat 55 (abent / 2) }
  s.bubble (keyCore k) (BitVec.ofNat 55 (abent / 2))

/-- The abort entry, once x1 to x3 wait on no earlier result (R42). -/
def State.sampleEntry (s : State) (k : CtxKey) : State :=
  if [1, 2, 3].any fun r => (s.ctx k).xwait.contains r then s else s.enterAbort k

/-- A parked context becomes ready, and samples the abort flag on waking (R98, R272). -/
def State.wake (s : State) (k : CtxKey) : State := (s.mapCtx k fun c => { c with waking := true }).makeReady k

/-- What a bundle that samples the flag does instead of issuing (R272; DEDUCED, log 27). -/
def State.sample (s : State) : Option State :=
  if s.abortDue s.iss.key then some (s.sampleEntry s.iss.key) else none

/-! ## Barrier episodes (R269) -/

/-- Whether an episode is complete: every participant has arrived and every release is complete. -/
def Episode.complete (e : Episode) : Bool := e.parts.all (fun k => e.arrived.contains k) && e.releasing.isEmpty

/-- The arrivals of a context at a group's barrier pass. -/
def Ctx.pass (c : Ctx) (g : BitVec 8) : Ctx :=
  let f := fun (a : Option Arrival) => a.map fun a => if a.g = g then { a with passed := true } else a
  { c with arrived := f c.arrived, arrivedSys := f c.arrivedSys }

/-- A complete episode of a group closes, and the contexts that arrived pass (R269). -/
def State.closeEpisode (s : State) (g : BitVec 8) : State :=
  match tget none g.toNat s.episodes with
  | none => s
  | some e =>
    if e.complete then
      e.arrived.foldl (fun s k => s.mapCtx k fun c => c.pass g) { s with episodes := tput none g.toNat none s.episodes }
    else s

/-- The open episode of a group changed, and closed when it is complete. -/
def State.mapEpisode (s : State) (g : BitVec 8) (f : Episode → Episode) : State :=
  match tget none g.toNat s.episodes with
  | none => s
  | some e => ({ s with episodes := tput none g.toNat (some (f e)) s.episodes }).closeEpisode g

/-- Whether the bundle of a context at a PCb has arrived at group g's barrier. -/
def Ctx.isArrived (c : Ctx) (g : BitVec 8) (pcb : BitVec 55) : Bool :=
  match c.arrival with
  | some a => a.g == g && a.pcb == pcb
  | none => false

/-- Whether the episode at which it arrived is complete. -/
def Ctx.passed (c : Ctx) (g : BitVec 8) (pcb : BitVec 55) : Bool := c.arrival == some ⟨g, pcb, true⟩

/-- The bundle of a context at a PCb arrives at group g's episode, opening it where none is open; `rel` that a release goes
with it. A context that is no participant waits for the participants like the others (R269; DEDUCED, log 59). -/
def State.arriveAt (s : State) (k : CtxKey) (g : BitVec 8) (pcb : BitVec 55) (rel : Bool) : State :=
  let e : Episode := match tget none g.toNat s.episodes with
    | some e => e
    | none => { parts := (s.members g).filter fun m => (s.ctx m).share.held, arrived := [], releasing := [] }
  let e := { e with arrived := e.arrived ++ [k], releasing := if rel then e.releasing ++ [k] else e.releasing }
  ({ s with episodes := tput none g.toNat (some e) s.episodes }).mapCtx k fun c => c.setArrival (some ⟨g, pcb, false⟩)

/-- The releases that a reset takes away are awaited in no episode any more (R269, R360). -/
def State.dropReleases (s : State) (k : CtxKey) : State :=
  s.episodes.foldl (fun s e =>
    s.mapEpisode (BitVec.ofNat 8 e.1) fun x => { x with releasing := x.releasing.filter (· != k) }) s

/-- A context whose share ends is awaited in no open episode any more: it counts as arrived, and a new share of it is no
participant (R269). -/
def State.dropOut (s : State) (k : CtxKey) : State :=
  s.episodes.foldl (fun s e => s.mapEpisode (BitVec.ofNat 8 e.1) fun x => { x with parts := x.parts.filter (· != k) }) s

/-- The protection fault of a barrier whose group does not list the issuing context (R224, R269). -/
def State.groupFault (s : State) (g : BitVec 8) : Option TrapInfo :=
  if s.listed g s.iss.key then none else some { code := 8 }

end Sys2Proof.Machine
end

