-- ==== Sys2Proof/Machine/Global.lean ====
section
/-! DEFINITION. The probe cache, releases and acquires, PHASE and AMOG, and the retirement of channels (R205 to R227). -/

namespace Sys2Proof.Machine

open Host (Outcome)

/-! ## Ranges of releases and acquires -/

/-- Whether a virtual block of n bytes from a overlaps the ranges of a release or acquire; a full one names none and
covers all. -/
def inRanges (ranges : List (Nat × Nat)) (a n : Nat) : Bool :=
  ranges.isEmpty || ranges.any fun r => decide (a < r.1 + r.2) && decide (r.1 < a + n)

/-- Whether a physical block is one to which a block of the ranges translates (R221). -/
def State.rangeHits (s : State) (u : Nat) (ranges : List (Nat × Nat)) (blk : Nat) : Bool :=
  ranges.isEmpty || ranges.any fun r =>
    (List.range ((r.1 + r.2 + 2 ^ 21 - 1) / 2 ^ 21 - r.1 / 2 ^ 21)).any fun i =>
      let va0 := (r.1 / 2 ^ 21 + i) * 2 ^ 21
      match s.pte u va0 with
      | some e =>
        decide (pteKey e ≤ blk * 256) && decide (blk * 256 < pteKey e + 2 ^ 21) &&
          inRanges [r] (va0 + (blk * 256 - pteKey e)) 256
      | none => false

/-! ## Acquires (R223) -/

/-- A slot returns to INVALID (R217, R223). -/
def Ctx.dropSlot (c : Ctx) (i : Nat) : Ctx :=
  { c with probe := { c.probe.setSlot i {} with order := c.probe.order.filter (· != i) } }

/-- An acquire point of a context over the blocks of ranges: their slots whose C flag is clear become INVALID, the dirty
ones written back first, and later fills of these blocks read anew (R222, R223). -/
def State.acquire (s : State) (k : CtxKey) (ranges : List (Nat × Nat)) : State :=
  let c := s.ctx k
  let hit := c.probe.slots.filter fun e => e.2.st != .invalid && !e.2.c && inRanges ranges e.2.tag 256
  let s := hit.foldl (fun s e => (s.writeback k e.1 (s.ctx k).epoch).mapCtx k fun c => c.dropSlot e.1) s
  let old := c.samples.filter fun x => s.rangeHits (unitOf k) ranges x.blk
  s.mapCtx k fun c => { c with samples := c.samples.filter fun x => !old.contains x }

/-! ## Releases (R221) -/

/-- The pattern slots whose drains a release waits for: all that have been advanced, or those with bytes in range. -/
def Ctx.drainLimits (c : Ctx) (ranges : List (Nat × Nat)) : List (SReg × Nat) :=
  c.streams.filterMap fun e =>
    let x := e.2
    if x.bound && x.kind != 0 then
      let hit := ((List.range (x.pos - x.drained)).map (· + x.drained)).filter fun i =>
        inRanges ranges (x.addr i) (x.drainLen i)
      match hit.getLast? with
      | some i => some (BitVec.ofNat 4 e.1, i + 1)
      | none => none
    else none

/-- A release point (R221): step 1 writes the dirty slots back, and what step 2 waits for is recorded. A full release
names no range. `copies` are the copies started before it whose bytes it covers. The slots are written back by slot number,
which matters only where the tags of several translate to one block (DESIGN CHOICE, log 29). -/
def State.startRelease (s : State) (k : CtxKey) (kind : RelKind) (ranges : List (Nat × Nat)) (copies : List Nat) :
    State :=
  let c := s.ctx k
  let dirty := c.probe.slots.filter fun e => e.2.dirty != 0 && inRanges ranges e.2.tag 256
  let s := dirty.foldl (fun s e => s.writeback k e.1 c.epoch) s
  s.mapCtx k fun c =>
    { c with
      releases := c.releases ++ [{ kind := kind, ranges := ranges, epoch := c.epoch,
                                   drains := c.drainLimits ranges, copies := copies }]
      epoch := c.epoch + 1 }

/-- The copies, gathers and scatters of a context in progress, by start number. -/
def State.copiesOf (s : State) (k : CtxKey) : List Nat :=
  ((List.range 8).flatMap fun d => (s.die d).chans.filterMap fun e =>
    if (e.2.st == .walking || e.2.st == .held) && e.2.owner == k then some e.2.id else none) ++
    ((s.core (keyCore k)).gathers.filterMap fun g => if g.key == k then some g.id else none)

/-- Whether step 2 of a release is met (R221). -/
def State.releaseDrained (s : State) (k : CtxKey) (r : Release) : Bool :=
  let c := s.ctx k
  r.drains.all (fun d =>
    let x := c.stream d.1
    !x.bound || x.kind == 0 || decide (d.2 ≤ x.drained)) &&
  !(s.copiesOf k).any (fun i => r.copies.contains i) &&
  c.unstaged.all (fun u => decide (r.epoch < u.epoch) || !inRanges r.ranges u.va 256)

/-- The parts of a staged block that a release commits: those of its own writes and of earlier ones (R221). -/
def Release.parts (r : Release) (w : Staged) : List StagedPart := w.parts.filter fun p => decide (p.epoch ≤ r.epoch)

/-- The staged blocks that a release commits (R221). -/
def State.relStaged (s : State) (k : CtxKey) (r : Release) : List Staged :=
  (s.ctx k).staged.filter fun w => !(r.parts w).isEmpty && s.rangeHits (unitOf k) r.ranges w.blk

/-- The bytes that parts cover. -/
def partsMask (l : List StagedPart) : Row256 := l.foldl (fun m p => m ||| p.mask) 0

/-- A release's bytes of a block committed, in one action (R220, R226). -/
def State.commitStaged (s : State) (k : CtxKey) (r : Release) (w : Staged) : State :=
  let ps := r.parts w
  let later := fun (x : Staged) =>
    if x.blk = w.blk then { x with parts := x.parts.filter fun p => decide (r.epoch < p.epoch) } else x
  ((s.commitBlk w.blk (partsMask ps) (overlayParts ps 0)).forget k w.blk (overlayParts ps)).mapCtx k fun c =>
    { c with staged := (c.staged.map later).filter fun x => !x.parts.isEmpty }

/-- The commit of an AMOG (R227): done, or the code of its fault. -/
def State.commitAmog (s : State) (k : CtxKey) (a : Amog) : Except Nat State :=
  let u := unitOf k
  match s.translate u a.ea .amog with
  | .error code => .error code
  | .ok e =>
    let b := pteByte e a.ea / 256
    match s.readBlk b with
    | none => .error 14
    | some (r, _) =>
      .ok ((((s.cache u a.ea).commitBlk b (byteRange (a.ea % 256) a.size) (a.data r)).forget k b a.over).mapCtx k
        fun c => { c with amogs := c.amogs.erase a })

/-- The AMOGs of a release committed in issue order (R221, R227): all of them, or the state in which one faulted and is
held, or waits for a migration window. -/
def State.commitAmogs (s : State) (k : CtxKey) : List Amog → Bool × State
  | [] => (true, s)
  | a :: r =>
    match s.migGate (.amog k a.num) (unitOf k) [a.ea / 2 ^ 21] with
    | none => (false, s)
    | some (true, s) => (false, s)
    | some (false, s) =>
      match s.commitAmog k a with
      | .ok s' => s'.commitAmogs k r
      | .error code =>
        (false, (s.mapCtx k fun c =>
          { c with amogs := c.amogs.map fun x => if x.num = a.num then { x with held := true } else x }).postCommit k code
            a.ea a.ea (.amog a.num))

/-- What completing a release of PHASE does; the other kinds are acted on by those who wait for them. -/
def State.releaseDone (s : State) (k : CtxKey) (kind : RelKind) : State :=
  match kind with
  | .phase g => s.mapEpisode g fun e => { e with releasing := e.releasing.erase k }
  | _ => s

/-- The pages that staged blocks were written through. -/
def stagedPages (l : List Staged) : List Nat := (l.map fun w => w.va / 2 ^ 21).eraseDups

/-- The steps 3 and 4 of a release whose step 2 is met: what is left is committed, and the release leaves the list
(R221). A page in a migration window holds it, and so do earlier writes to the page (R208). -/
def State.finishRelease (s : State) (k : CtxKey) (r : Release) : State :=
  match s.migGate (.commit k r.epoch) (unitOf k) (stagedPages (s.relStaged k r)) with
  | none => s
  | some (true, s) => s
  | some (false, s) =>
    let s := (s.relStaged k r).foldl (fun s w => s.commitStaged k r w) s
    let as := if r.ranges.isEmpty then (s.ctx k).amogs.filter fun a => decide (a.epoch ≤ r.epoch) else []
    let res := s.commitAmogs k as
    if res.1 then
      ((res.2.mapCtx k fun c => { c with releases := c.releases.erase r }).settle k).releaseDone k r.kind
    else res.2

/-- Whether a release can complete: its step 2 is met and none of its AMOGs is held. -/
def State.releasable (s : State) (k : CtxKey) (r : Release) : Bool :=
  s.releaseDrained k r && !(r.ranges.isEmpty && (s.ctx k).amogs.any (fun a => a.held && decide (a.epoch ≤ r.epoch)))

/-- One block of a release in progress is committed ahead of the rest (R221 step 3, DESIGN CHOICE, log 1). -/
def State.commitOne (s : State) (k : CtxKey) (blk : Nat) : Option State :=
  ((s.ctx k).releases.filter (s.releaseDrained k)).findSome? fun r =>
    match (s.relStaged k r).find? (fun w => w.blk == blk) with
    | none => none
    | some w =>
      let page := w.va / 2 ^ 21
      match s.migPass (.commit k r.epoch) (unitOf k) [page] with
      | none => none
      | some (true, s) => some s
      | some (false, s) =>
        let s := s.commitStaged k r w
        let more := (s.relStaged k r).any fun w => w.va / 2 ^ 21 == page
        some ((if more then s else s.leaveHeld (.commit k r.epoch) [page]).settle k)

/-- A block read for a later fill of a context (R222, DESIGN CHOICE, log 1). -/
def State.takeSample (s : State) (k : CtxKey) (va : Nat) : Option State :=
  match s.pte (unitOf k) va with
  | none => none
  | some e =>
    let b := pteByte e va / 256
    match s.readBlk b with
    | some (r, nl) =>
      let x : Sample := { blk := b, va := va / 256 * 256, row := r, notlive := nl, seen := s.recs.length }
      some (s.mapCtx k fun c => { c with samples := x :: c.samples.filter fun y => y.blk != b })
    | none => none

/-- The staged writes of every context follow their virtual page to where it now lies, when the window that held their
commit closes (R208). -/
def State.retarget (s : State) : State :=
  s.liveKeys.foldl (fun s k => s.mapCtx k fun c =>
    let place := fun (w : Staged) =>
      if s.migHeld.any (fun e => e.page == w.va / 2 ^ 21) then
        match s.pte (unitOf k) w.va with
        | some e => if s.pageMig (unitOf k) (w.va / 2 ^ 21) then w.blk else pteByte e w.va / 256
        | none => w.blk
      else w.blk
    { c with staged := c.staged.foldl (fun l w => w.parts.foldl (fun l p => addStaged l (place w) w.va p) l) [] }) s

/-! ## The probe instructions (R212 to R216) -/

/-- The slot that holds a block, VALID or FILLING. -/
def ProbeSet.lookup (p : ProbeSet) (blk : Nat) : Option Nat :=
  (List.range p.nslot).find? fun i => (p.slot i).st != .invalid && (p.slot i).tag == blk

/-- The victim (R215): the lowest INVALID slot, else the VALID slot of the least recent rank. -/
def ProbeSet.victim (p : ProbeSet) : Option Nat :=
  match (List.range p.nslot).find? (fun i => (p.slot i).st == .invalid) with
  | some i => some i
  | none => (p.order.filter fun i => (p.slot i).st == .valid).getLast?

/-- A slot made the most recent. -/
def ProbeSet.touch (p : ProbeSet) (i : Nat) : ProbeSet := { p with order := i :: p.order.filter (· != i) }

/-- The address of the row of a slot. -/
def ProbeSet.rowAddr (p : ProbeSet) (i : Nat) : Nat := 256 * (p.srow + i)

/-- PROBE and PFILL without a probe set (R214). -/
def State.probeFault (s : State) : Option TrapInfo := if s.me.probe.nslot = 0 then some { code := 10 } else none

/-- PROBE and PFILL stall while a block misses and no slot can be taken, or its writeback has no room (R215, R220). -/
def State.probeStall (s : State) (blk : Nat) : Option State :=
  let p := s.me.probe
  match p.lookup blk with
  | some _ => none
  | none =>
    match p.victim with
    | none => some s
    | some i => if s.wbWaits s.iss.key i then some s else none

/-- What a probe fill takes as it leaves the core: it is translated then, and the committed value of the block read (R202,
R222). -/
def State.takeFill (s : State) (k : CtxKey) (tag : Nat) : Option ProbeFill :=
  (s.pte (unitOf k) tag).map fun e => { pte := e, data := s.readAhead k (pteByte e tag / 256) }

/-- The slot i of a context begins the fill of its block. -/
def State.beginFill (s : State) (k : CtxKey) (tag i : Nat) : State :=
  let f := s.takeFill k tag
  ((s.cache (unitOf k) tag).useSamples (unitOf k) k tag 1).mapCtx k fun c =>
    { c with probe := c.probe.setSlot i { c.probe.slot i with fill := f } }

/-- A miss: the victim is written back and takes the block (R214). -/
def State.probeMiss (s : State) (blk i : Nat) : State :=
  let k := s.iss.key
  ((s.writeback k i (s.ctx k).epoch).mapCtx k fun c =>
    { c with probe := (c.probe.setSlot i { tag := blk, st := .filling }).touch i }).beginFill k blk i

/-- The core issues nothing until 4 clk after a PROBE; a miss whose target is resident adds the bubble of a branch, and
another ends in the fetch wait (R91, R214). -/
def State.probeClk (s : State) : State := s.mapCore s.myCore fun co => { co with nextIssue := s.clk + 4 }
/-- The branch of a PROBE that misses. -/
def State.probeJump (s : State) (pc : BitVec 55) : State :=
  if s.resident s.myCore pc then (s.jump pc).mapCore s.myCore fun co => { co with nextIssue := s.clk + 5 }
  else (s.jump pc).probeClk

/-- PROBE: looks a block up, and branches on a miss (R214). -/
def semProbe (rd rs : XReg) (imm : BitVec 32) : Sem :=
  { fault := State.probeFault
    stall := fun s => s.probeStall ((s.rx rs).toNat / 256 * 256)
    eff := fun s =>
      let blk := (s.rx rs).toNat / 256 * 256
      let p := s.me.probe
      match p.lookup blk with
      | some i =>
        let x := p.slot i
        if x.st = .valid then
          ((s.wx rd (word (p.rowAddr i + b2n x.notlive))).mapMe fun c =>
            { c with probe := c.probe.touch i }).probeClk
        else (s.wx rd (word (p.rowAddr i))).probeJump (s.target imm)
      | none =>
        match p.victim with
        | some i => ((s.probeMiss blk i).wx rd (word (p.rowAddr i))).probeJump (s.target imm)
        | none => s }
/-- PROBE. -/
def execProbe (rd rs : XReg) (imm : BitVec 32) (s : State) : Outcome State Fault Refusal := (semProbe rd rs imm).run s

/-- PFILL: as PROBE on a miss, and nothing on a hit (R216). It has no outcome that the next bundle awaits, and does not hold
the core for 4 clk as PROBE does (DESIGN CHOICE, log 60). -/
def semPfill (base : XReg) (off : BitVec 32) : Sem :=
  { fault := State.probeFault
    stall := fun s => s.probeStall ((s.ea base off).toNat / 256 * 256)
    eff := fun s =>
      let blk := (s.ea base off).toNat / 256 * 256
      match s.me.probe.lookup blk, s.me.probe.victim with
      | none, some i => s.probeMiss blk i
      | _, _ => s }
/-- PFILL. -/
def execPfill (base : XReg) (off : BitVec 32) (s : State) : Outcome State Fault Refusal := (semPfill base off).run s

/-- PWB: writes back the slot of a block (R217). -/
def semPwb (base : XReg) (off : BitVec 32) : Sem :=
  { stall := fun s =>
      match s.me.probe.lookup ((s.ea base off).toNat / 256 * 256) with
      | some i => if s.wbWaits s.iss.key i then some s else none
      | none => none
    eff := fun s =>
      match s.me.probe.lookup ((s.ea base off).toNat / 256 * 256) with
      | some i => s.writeback s.iss.key i s.me.epoch
      | none => s }
/-- PWB. -/
def execPwb (base : XReg) (off : BitVec 32) (s : State) : Outcome State Fault Refusal := (semPwb base off).run s

/-- PINV: the slot of a block becomes INVALID, its dirty bytes discarded (R217). -/
def semPinv (base : XReg) (off : BitVec 32) : Sem :=
  { eff := fun s =>
      match s.me.probe.lookup ((s.ea base off).toNat / 256 * 256) with
      | some i => s.mapMe fun c => c.dropSlot i
      | none => s }
/-- PINV. -/
def execPinv (base : XReg) (off : BitVec 32) (s : State) : Outcome State Fault Refusal := (semPinv base off).run s

/-- PINV.all: every slot of the set becomes INVALID (R217). -/
def semPinvAll : Sem := { eff := fun s => s.mapMe fun c => { c with probe := { c.probe with slots := [], order := [] } } }
/-- PINV.all. -/
def execPinvAll (s : State) : Outcome State Fault Refusal := semPinvAll.run s

/-- The checks of PINV.cfg (R213). -/
def State.pinvCfgFault (s : State) (v : Word) : Option TrapInfo :=
  let srow := bits v.toNat 0 16
  let n := bits v.toNat 16 11
  let others := ((coreKeys s.myCore).filter (· != s.iss.key)).foldl (fun a k => a + (s.ctx k).probe.nslot) 0
  if 1024 < n ∨ bits v.toNat 27 37 ≠ 0 ∨ 1024 < n + others then some { code := 10 }
  else if n = 0 then none else s.rowsFault s.myCore srow n

/-- PINV.cfg: installs a probe set (R213). -/
def semPinvCfg (xs : XReg) : Sem :=
  { fault := fun s => s.pinvCfgFault (s.rx xs)
    eff := fun s => s.mapMe fun c =>
      { c with probe := { srow := bits (s.rx xs).toNat 0 16, nslot := bits (s.rx xs).toNat 16 11 } } }
/-- PINV.cfg. -/
def execPinvCfg (xs : XReg) (s : State) : Outcome State Fault Refusal := (semPinvCfg xs).run s

/-- What the fill of a slot delivers: the row as it was read at the PROBE, NOTLIVE and C, with the pending writes of the
context as they stand; or the code of its fault (R201, R203, R222; DEDUCED, log 57). -/
def State.fillResult (s : State) (k : CtxKey) (x : ProbeSlot) : Except Nat (Row × Bool × Bool) :=
  match x.fill with
  | none => .error 7
  | some { pte := e, data := d } =>
    let b := pteByte e x.tag / 256
    match d with
    | none => .error 14
    | some (r, nl) => .ok (s.overlayOwn k b r, nl, pteC e)

/-- PROBE_FILL_COMPLETE: a FILLING slot takes the bytes of its block that no write has replaced (R211, R214), or its
fill faults and is held (R218); EVT is set ahead of an evaluation of the context on the same clk (R99). -/
def execProbeFillComplete (k : CtxKey) (slot : BitVec 11) (s : State) : Outcome State Fault Refusal :=
  let p := (s.ctx k).probe
  let i := slot.toNat
  let x := p.slot i
  if x.st != .filling || x.held || decide (p.nslot ≤ i) || s.evaluated k then .refused .notEnabled
  else match s.fillResult k x with
    | .error code =>
      .next ((s.mapCtx k fun c => { c with evt := true, probe := c.probe.setSlot i { x with held := true } }).post k
        { code := code, eaddr := word x.tag, einfo := engInfo 7 i 0 } 7 (some (.probe i)))
    | .ok (r, nl, c) =>
      .next ((s.writeRow (keyCore k) (p.srow + i) (~~~x.dirty) r).mapCtx k fun y => { y with
        evt := true, probe := y.probe.setSlot i { x with st := .valid, fill := none, c := c, notlive := nl } })

/-! ## PHASE and AMOG (R224, R227) -/

/-- PHASE: arrives with a full release, and passes with an acquire (R224, R269). -/
def semPhase (g : BitVec 8) : Sem :=
  { instead := State.sample
    fault := fun s => s.groupFault g
    arrive := fun s =>
      let k := s.iss.key
      if (s.ctx k).isArrived g s.iss.pcb then s
      else (s.arriveAt k g s.iss.pcb true).startRelease k (.phase g) [] (s.copiesOf k)
    block := fun s => if s.me.passed g s.iss.pcb then [] else [.group g]
    eff := fun s => (s.acquire s.iss.key []).mapMe fun c => c.setArrival none }
/-- PHASE. -/
def execPhase (g : BitVec 8) (s : State) : Outcome State Fault Refusal := (semPhase g).run s

/-- AMOG: records an atomic for the context's next full release (R227). -/
def semAmog (op : AmogOp) (w64 : Bool) (xs base : XReg) (off : BitVec 32) : Sem :=
  { fault := fun s => if (s.ea base off).toNat % (if w64 then 8 else 4) = 0 then none else some { code := 10 }
    stall := fun s => if 1024 ≤ s.me.stagedCount then some s else none
    eff := fun s => s.mapMe fun c =>
      let a : Amog := { num := c.acc, ea := (s.ea base off).toNat, op := op, w64 := w64,
                        val := (s.rx xs).toNat % (if w64 then 2 ^ 64 else 2 ^ 32), epoch := c.epoch, held := false }
      { c with amogs := c.amogs ++ [a], acc := c.acc + 1 } }
/-- AMOG. -/
def execAmog (op : AmogOp) (w64 : Bool) (xs base : XReg) (off : BitVec 32) (s : State) : Outcome State Fault Refusal :=
  (semAmog op w64 xs base off).run s

/-! ## Replay and discard (R343) -/

/-- Whether a writeback is held after a fault. -/
def Unstaged.held (u : Unstaged) : Bool := match u.why with | .fault => true | .row _ _ => true | _ => false

/-- A held writeback tried again, its row read anew where that faulted; or dropped. -/
def State.againCommit (s : State) (k : CtxKey) (va : Nat) (again : Bool) : State :=
  match (s.ctx k).unstaged.find? (fun u => u.held && u.va == va) with
  | none => s
  | some u =>
    let s := s.mapCtx k fun c => { c with unstaged := c.unstaged.erase u }
    if !again then s
    else match u.why with
      | .row core row =>
        let ea := (s.rowNames core row).findSome? fun e => if e.1 = k then some (256 * e.2) else none
        s.writebackRow k u.va u.mask core row (ea.getD 0) u.epoch
      | _ => s.pendBlock k u.va u.mask u.data u.epoch

/-- A held AMOG tried again at its release, or dropped. -/
def State.againAmog (s : State) (k : CtxKey) (num : Nat) (again : Bool) : State :=
  s.mapCtx k fun c =>
    if again then { c with amogs := c.amogs.map fun a => if a.num = num then { a with held := false } else a }
    else { c with amogs := c.amogs.filter fun a => a.num != num }

/-- A held probe fill made again, or its slot INVALID (R218). -/
def State.againProbe (s : State) (k : CtxKey) (i : Nat) (again : Bool) : State :=
  let x := (s.ctx k).probe.slot i
  if !x.held then s
  else if again then
    (s.mapCtx k fun c => { c with probe := c.probe.setSlot i { x with held := false } }).beginFill k x.tag i
  else s.mapCtx k fun c => c.dropSlot i

/-- A held transfer of a stream made again; or its binding ended, the held slot and those after it dropped (R196, R197,
R343). -/
def State.againStream (s : State) (k : CtxKey) (sn : SReg) (again : Bool) : State :=
  s.mapCtx k fun c =>
    let x := c.stream sn
    if x.held.isNone then c
    else if again then c.setStream sn { x with held := none, again := if x.kind = 0 then x.held else none }
    else c.unbind sn

/-! ## The retirement of channels (R206, R207) -/

/-- The events of a change of a pseudo-channel's state. -/
def PcState.code : PcState → Nat
  | .normal => 0 | .degraded => 1 | .rebuilding => 2 | .retired => 3

/-- A pseudo-channel's state set, with its event. -/
def State.setPc (s : State) (stack : BitVec 3) (p : Nat) (st : PcState) : State :=
  let x : StackState := tget {} stack.toNat s.dram.hbm
  let x := { x with chan := tput .normal p st x.chan }
  ({ s with dram := { s.dram with hbm := tput {} stack.toNat x s.dram.hbm } }).event 1 (stack.toNat * 512 + p)
    (PcState.code st)

/-- A stack changed. -/
def State.mapStack (s : State) (stack : BitVec 3) (f : StackState → StackState) : State :=
  { s with dram := { s.dram with hbm := tmod {} stack.toNat f s.dram.hbm } }

/-- A failed channel is rebuilt at once while a reserve channel remains (R206). -/
def State.startRebuild (s : State) (stack : BitVec 3) (p : Nat) : State :=
  let x : StackState := tget {} stack.toNat s.dram.hbm
  if 2 ≤ x.retired.length + x.rebuild.length then s
  else (s.setPc stack p .rebuilding).mapStack stack fun x => { x with rebuild := x.rebuild ++ [p] }

/-- CHANNEL_FAILURE: the agent detects the failure of a pseudo-channel (R206, R207). -/
def execChannelFailure (stack : BitVec 3) (pc : BitVec 9) (s : State) : Outcome State Fault Refusal :=
  let x : StackState := tget {} stack.toNat s.dram.hbm
  if 384 ≤ pc.toNat ∨ tget .normal pc.toNat x.chan ≠ .normal then .refused .notEnabled
  else .next ((s.setPc stack pc.toNat .degraded).startRebuild stack pc.toNat)

/-- The 256-byte blocks of a stack's visible 58 GiB (R206). -/
def stackBlocks : Nat := 58 * 2 ^ 22

/-- REBUILD_BLOCK_MOVE: the next block moves into the new layout of the first channel that is rebuilt; a block that could
not be read stays in error there; after the last, the channel is retired (R206, R207). Two channels of a stack are rebuilt
one after the other, the second a survivor of the first layout, which R206 does not say (DESIGN CHOICE, log 60). -/
def execRebuildBlockMove (stack : BitVec 3) (s : State) : Outcome State Fault Refusal :=
  let x : StackState := tget {} stack.toNat s.dram.hbm
  match x.rebuild with
  | [] => .refused .notEnabled
  | p :: r =>
    let b := stack.toNat * 2 ^ 28 + x.moved
    let s := if s.blkLost b then { s with dram := { s.dram with err := tput false b true s.dram.err } } else s
    let s := s.mapStack stack fun x => { x with moved := x.moved + 1 }
    if x.moved + 1 < stackBlocks then .next s
    else .next ((s.setPc stack p .retired).mapStack stack fun x =>
      { x with moved := 0, rebuild := r, retired := x.retired ++ [p] })

end Sys2Proof.Machine
end

