-- ==== Sys2Proof/Machine/Copy.lean ====
section
/-! DEFINITION. Buffer handles, copy channels, gather and scatter (R230 to R244). -/

namespace Sys2Proof.Machine

open Host (Outcome)

/-! ## Handles (R230 to R235) -/

/-- A handle of a core. -/
def State.handle (s : State) (n : CoreNo) (h : BitVec 6) : Handle := tget {} h.toNat (s.core n).handles
/-- A handle changed. -/
def State.mapHandle (s : State) (n : CoreNo) (h : BitVec 6) (f : Handle → Handle) : State :=
  s.mapCore n fun c => { c with handles := tmod {} h.toNat f c.handles }
/-- A status word (R231). -/
def handleStatus (result : Nat) (notlive : Bool) (srck size : Nat) : Word :=
  word (result + 16 * b2n notlive + 256 * srck + 65536 * Nat.min size (2 ^ 32 - 1))
/-- The condition of an instruction that requires a handle FREE. -/
def State.needFree (s : State) (h : BitVec 6) : List ParkCond :=
  if (s.handle s.myCore h).st = .free then [] else [.handleFree h]
/-- The condition of an instruction that requires a handle FULL. -/
def State.needFull (s : State) (h : BitVec 6) : List ParkCond :=
  if (s.handle s.myCore h).st = .full then [] else [.handleFull h]

/-- The checks of BSET.cfg (R235). -/
def State.bsetFault (s : State) (v : Word) : Option TrapInfo :=
  if 2 ^ 31 ≤ v.toNat ∨ bits v.toNat 16 15 = 0 then some { code := 10 }
  else s.rowsFault s.myCore (bits v.toNat 0 16) (bits v.toNat 16 15)

/-- BSET.cfg: the rows of a handle (R235). -/
def semBsetCfg (h : BitVec 6) (xs : XReg) : Sem :=
  { fault := fun s => s.bsetFault (s.rx xs)
    block := fun s => s.needFree h
    eff := fun s => s.mapHandle s.myCore h fun x =>
      { x with brow := bits (s.rx xs).toNat 0 16, nrows := bits (s.rx xs).toNat 16 15 } }
/-- BSET.cfg. -/
def execBsetCfg (h : BitVec 6) (xs : XReg) (s : State) : Outcome State Fault Refusal := (semBsetCfg h xs).run s

/-- BSET.full: FREE to FULL (R232, R235). -/
def semBsetFull (h : BitVec 6) : Sem :=
  { block := fun s => s.needFree h
    eff := fun s => s.mapHandle s.myCore h fun x => { x with st := .full, status := handleStatus 0 false 0 0 } }
/-- BSET.full. -/
def execBsetFull (h : BitVec 6) (s : State) : Outcome State Fault Refusal := (semBsetFull h).run s

/-- BSET.free: FULL to FREE (R232, R235). -/
def semBsetFree (h : BitVec 6) : Sem :=
  { block := fun s => s.needFull h
    eff := fun s => s.mapHandle s.myCore h fun x => { x with st := .free, status := handleStatus 0 false 0 0 } }
/-- BSET.free. -/
def execBsetFree (h : BitVec 6) (s : State) : Outcome State Fault Refusal := (semBsetFree h).run s

/-- BWAIT: waits for a state of a handle and reads its status (R232, R235). -/
def semBwait (rd : XReg) (h : BitVec 6) (free : Bool) : Sem :=
  { block := fun s => if free then s.needFree h else s.needFull h
    eff := fun s => s.wx rd (s.handle s.myCore h).status }
/-- BWAIT. -/
def execBwait (rd : XReg) (h : BitVec 6) (free : Bool) (s : State) : Outcome State Fault Refusal :=
  (semBwait rd h free).run s

/-! ## Copy channels (R236 to R243) -/

/-- A channel of a die. -/
def State.chan (s : State) (d : Nat) (c : BitVec 6) : CopyChan := tget {} c.toNat (s.die d).chans
/-- A channel set. -/
def State.setChan (s : State) (d : Nat) (c : BitVec 6) (x : CopyChan) : State :=
  s.mapDie d fun y => { y with chans := tput {} c.toNat x y.chans }

/-- XCHAIN: starts, resumes or replaces a chain (R237). -/
def semXchain (rd xh : XReg) (ch : BitVec 6) : Sem :=
  { fault := fun s =>
      let h := (s.rx xh).toNat
      if bits h 0 6 ≠ 0 ∨ bits h 56 8 ≠ 0 then some { code := 10, eaddr := s.rx xh } else none
    eff := fun s =>
      let d := coreDie s.myCore
      let x := s.chan d ch
      let h := (s.rx xh).toNat
      let go := fun (a chain : Nat) =>
        { (s.setChan d ch { st := .walking, addr := a, owner := s.iss.key, id := s.starts, chain := chain }) with
          starts := s.starts + 1 }.wx rd 1
      if x.st = .idle ∧ h ≠ 0 then go h s.starts
      else if x.st = .waiting then (if h = 0 then go x.addr x.chain else go h s.starts)
      else s.wx rd 0 }
/-- XCHAIN. -/
def execXchain (rd xh : XReg) (ch : BitVec 6) (s : State) : Outcome State Fault Refusal := (semXchain rd xh ch).run s

/-- The fields of the 64 bytes of a record (R238). -/
def copyFields (l : List Byte) : CopyRec :=
  let ctl := dfield l 40 1
  { next := dfield l 0 8, src := dfield l 8 8, dst := dfield l 16 8, len := dfield l 24 4,
    count := dfield l 28 4, sstr := toI 32 (dfield l 32 4), dstr := toI 32 (dfield l 36 4),
    decomp := bits ctl 1 1 == 1, handle := if bits ctl 2 1 = 1 then some (BitVec.ofNat 6 (dfield l 41 1)) else none,
    piece := 0, notlive := false, got := bits ctl 2 1 == 0 }

/-- Whether a field names a scratchpad (R239). -/
def inSpad (a : Nat) : Bool := bits a 63 1 == 1
/-- Whether the reserved bits of an address field are zero and it is a multiple of 16 (R239). -/
def copyAddrOk (a : Nat) : Bool :=
  if inSpad a then bits a 0 4 == 0 && bits a 23 9 == 0 && bits a 44 19 == 0 else bits a 0 4 == 0 && bits a 56 7 == 0

/-- The address of piece p: in the scratchpad's bytes, or virtual modulo 2^64. -/
def pieceAddr (a : Nat) (str : Int) (p : Nat) : Int :=
  if inSpad a then (bits a 0 23 : Int) + p * str else ((a : Int) + p * str) % (2 : Int) ^ 64

/-- Whether every piece of a side lies within 384 KiB, where it is a scratchpad's (R241). -/
def piecesFit (a len count : Nat) (str : Int) : Bool :=
  !inSpad a || [0, count - 1].all fun p =>
    decide (0 ≤ pieceAddr a str p) && decide (pieceAddr a str p + len ≤ spadSize)

/-- Whether a record passes R241 and R242; DECOMP ignores the strides. -/
def copyOk (l : List Byte) : Bool :=
  let r := copyFields l
  let dstr := if r.decomp then 0 else r.dstr
  r.next % 64 == 0 && dfield l 40 1 / 8 == 0 && (dfield l 41 1) / 64 == 0 && dfield l 42 6 == 0 &&
    r.len % 16 == 0 && decide (16 ≤ r.len) && decide (r.len ≤ 2 ^ 24) && decide (1 ≤ r.count) &&
    decide (r.count ≤ 2 ^ 24) && copyAddrOk r.src && copyAddrOk r.dst &&
    (r.decomp || (decide (r.sstr % 16 = 0) && decide (r.dstr % 16 = 0))) &&
    (r.decomp || piecesFit r.src r.len r.count r.sstr) && piecesFit r.dst r.len r.count dstr &&
    (!r.decomp || (!inSpad r.src && r.count == 1))

/-- A handle's park conditions cleared by a fault of its operation, for the context that owns it (R233). -/
def RunState.clearHandle (h : BitVec 6) : RunState → RunState
  | .parked l => .parked (l.map fun c => match c with
      | .handleFull g => if g = h then .cleared else c
      | .handleFree g => if g = h then .cleared else c
      | _ => c)
  | r => r

/-- The same in the state. -/
def State.clearHandle (s : State) (k : CtxKey) (h : BitVec 6) : State :=
  s.mapCtx k fun c => { c with run := c.run.clearHandle h }

/-- The owner's staged bytes of a record committed in one action (R240), behind a migration window of its page (R208). -/
def State.commitRecord (s : State) (d : Nat) (ch : BitVec 6) : WriteEnd :=
  let x := s.chan d ch
  let k := x.owner
  match s.pte d x.addr with
  | none => .done s
  | some e =>
    let b := pteByte e x.addr / 256
    let m := byteRange (x.addr % 256) 64
    let ps := ((s.ctx k).staged.filter fun w => w.blk == b).flatMap (·.parts)
    if partsMask ps &&& m = 0 then .done s
    else match s.migGate (.copy k d ch) d [x.addr / 2 ^ 21] with
      | none => .waits s
      | some (true, s) => .waits s
      | some (false, s) =>
        let cut := fun (w : Staged) =>
          if w.blk = b then
            { w with parts := (w.parts.map fun p => { p with mask := p.mask &&& ~~~m }).filter fun p => p.mask != 0 }
          else w
        let own := fun (v : Row) => mergeRow v (overlayParts ps v) m
        .done ((((s.commitBlk b (partsMask ps &&& m) (overlayParts ps 0)).forget k b own).mapCtx k fun c =>
          { c with staged := (c.staged.map cut).filter fun w => !w.parts.isEmpty }).settle k)

/-- A record's fault: the channel is held, with OWN still 1 (R233, R240, R241). -/
def State.holdCopy (s : State) (d : Nat) (ch : BitVec 6) (code ea : Nat) : State :=
  let x := s.chan d ch
  let s := match x.cur with
    | some { handle := some h, .. } => s.clearHandle x.owner h
    | _ => s
  (s.setChan d ch { x with st := .held }).post x.owner
    { code := code, eaddr := word ea, einfo := engInfo 4 ch.toNat 0 } 4 (some (.copy (BitVec.ofNat 3 d) ch))

/-- The next record of a channel read and checked (R240). -/
def State.readRecord (s : State) (d : Nat) (ch : BitVec 6) : State :=
  match s.commitRecord d ch with
  | .waits s => s
  | .fault code ea => s.holdCopy d ch code ea
  | .done s =>
    let x := s.chan d ch
    let a := x.addr
    match s.readVA d (some x.owner) a 64 with
    | .error (code, ea) => (s.cacheN d a 64).holdCopy d ch code ea
    | .ok (l, _) =>
      let s := (s.cacheN d a 64).useSamples d x.owner a 64
      if dfield l 40 1 % 2 = 0 then s.setChan d ch { x with st := .waiting, cur := none }
      else if !copyOk l then s.holdCopy d ch 10 a
      else s.setChan d ch { x with cur := some (copyFields l) }

/-- The handle of the record under way taken: none while it is not FREE, or while a bundle of its core may take it on this
clk (R232, R240). -/
def State.takeHandle (s : State) (d : Nat) (ch : BitVec 6) : Option State :=
  let x := s.chan d ch
  match x.cur with
  | none => none
  | some r =>
    match r.handle with
    | none => some s
    | some h =>
      let n := keyCore x.owner
      if r.got then some s
      else if (s.handle n h).st = .free ∧ s.issueOver n then
        some ((s.mapHandle n h fun y => { y with st := .filling }).setChan d ch { x with cur := some { r with got := true } })
      else none

/-- n bytes of a core's own scratchpad; none where a bank line holds an uncorrectable error (R175). -/
def State.spadBytes (s : State) (core a n : Nat) : Option (List Byte) :=
  let rows := blockPieces a n
  if rows.any (fun p => s.rowBad core (p.1 / 256) (p.1 % 256) (p.1 % 256 + p.2)) then none
  else some (toBytes n (s.spad.bytes.read (core * spadSize + a) n))

/-- Bytes written into a core's own scratchpad, each row in one action (R177). -/
def State.putSpad (s : State) (core a : Nat) (bs : List Byte) : State :=
  (blockPieces a bs.length).foldl (fun s p =>
    s.writeLocal core (p.1 / 256) (byteRange (p.1 % 256) p.2)
      (placeBytes (p.1 % 256) ((bs.drop (p.1 - a)).take p.2)) false) s

/-- The release to which the writes of a copy or scatter belong (R221). -/
def Ctx.copyEpoch (c : Ctx) (id : Nat) : Nat :=
  match c.releases.find? (fun r => r.copies.contains id) with
  | some r => r.epoch
  | none => c.epoch

/-- SIZE of the LOSSLESS image of data (R249, DESIGN CHOICE, log 13). -/
def losslessSize (bs : List Byte) : Nat := 16 * (1 + Config.losslessGrain bs % ((bs.length + 256) / 16))

/-- The LOSSLESS image of data (R249, DESIGN CHOICE, log 13). -/
def losslessImage (bs : List Byte) : List Byte := (List.range (losslessSize bs)).map (Config.losslessByte bs)

/-- What the LOSSLESS image holds that Locket has stored at an address, by whatever page the address reaches the place. -/
def State.imageAt (s : State) (d va : Nat) : Option (List Byte) :=
  match s.pte d va with
  | some e => if va % 256 = 0 then (s.dram.images.find? fun x => x.1 == pteByte e va / 256).map (·.2) else none
  | none => none

/-- The data that an image at an address decodes to, none where its header is not valid, and NOTLIVE; or the fault of
reading it (R203, R242). What bytes that are no intact image of Locket's decode to is a free value (log 13). -/
def State.decodeImage (s : State) (d : Nat) (k : CtxKey) (va len : Nat) : Except (Nat × Nat) (Option (List Byte) × Bool) :=
  let x := s.imageAt d va
  let n := match x with | some x => losslessSize x | none => 16 + Config.losslessReach s.fresh % (len + 256)
  match s.readVA d (some k) va n with
  | .error f => .error f
  | .ok (bs, nl) =>
    match x with
    | some x => .ok (if bs = losslessImage x then some x else Config.losslessOther s.fresh, nl)
    | none => .ok (Config.losslessOther s.fresh, nl)

/-- The source bytes of a piece and NOTLIVE, or its fault. That of an uncorrectable scratchpad error names the piece's first byte
within the source core's scratchpad, R175 naming no address (DESIGN CHOICE, log 51). -/
def State.pieceRead (s : State) (d : Nat) (k : CtxKey) (r : CopyRec) (p : Nat) : ReadResult :=
  if inSpad r.src then
    let a := (pieceAddr r.src r.sstr p).toNat
    match s.spadBytes (bits r.src 32 12) a r.len with
    | some bs => .ok (bs, false)
    | none => .error (14, a)
  else if r.decomp then
    match s.decodeImage d k r.src r.len with
    | .error e => .error e
    | .ok (some bs, nl) => if bs.length = r.len then .ok (bs, nl) else .error (10, 0)
    | .ok (none, _) => .error (10, 0)
  else s.readVA d (some k) (pieceAddr r.src r.sstr p).toNat r.len

/-- The next piece of the record under way: read wholly, then written (R240). -/
def State.copyPiece (s : State) (d : Nat) (ch : BitVec 6) (r : CopyRec) : WriteEnd :=
  let x := s.chan d ch
  let k := x.owner
  let p := r.piece
  match s.pieceRead d k r p with
  | .error (code, ea) => .fault code (if r.decomp ∧ code = 10 then x.addr else ea)
  | .ok (bs, nl) =>
    let sa := (pieceAddr r.src r.sstr p).toNat
    let s := if inSpad r.src then s else (s.cacheN d sa r.len).useSamples d k sa r.len
    let s := if r.decomp then s.bump else s
    let fin := fun (s : State) =>
      s.setChan d ch { s.chan d ch with cur := some { r with piece := p + 1, notlive := r.notlive || nl } }
    let da := (pieceAddr r.dst (if r.decomp then 0 else r.dstr) p).toNat
    if inSpad r.dst then .done (fin (s.putSpad (bits r.dst 32 12) da bs))
    else match s.engineWrite (.copy k d ch) d k da bs ((s.ctx k).copyEpoch x.id) with
      | .done s => .done (fin s)
      | e => e

/-- Pieces from the present one, `n` at most. -/
def State.copyPieces (s : State) (d : Nat) (ch : BitVec 6) : Nat → WriteEnd
  | 0 => .done s
  | n + 1 =>
    match (s.chan d ch).cur with
    | none => .done s
    | some r =>
      if r.count ≤ r.piece then .done s
      else match s.copyPiece d ch r with
        | .done s => s.copyPieces d ch n
        | .fault code ea => .done (s.holdCopy d ch code ea)
        | .waits s => .waits s

/-- The end of a record: OWN := 0 and STATUS committed in one action, the handle FULL, and the next record (R240). -/
def State.endRecord (s : State) (d : Nat) (ch : BitVec 6) (r : CopyRec) : State :=
  let x := s.chan d ch
  let a := x.addr
  match s.translate d a .write with
  | .error code => (s.cache d a).holdCopy d ch code a
  | .ok e =>
    match s.migGate (.copy x.owner d ch) d [a / 2 ^ 21] with
    | none => s
    | some (true, s) => s
    | some (false, s) =>
      let lo := a % 256
      let ctl := 2 * b2n r.decomp + 4 * b2n r.handle.isSome
      let st := 16 * b2n r.notlive
      let b := pteByte e a / 256
      let s := (s.cache d a).commitBlk b (byteRange (lo + 40) 1 ||| byteRange (lo + 48) 8)
        (placeBytes (lo + 40) [BitVec.ofNat 8 ctl] ||| placeBytes (lo + 48) (toBytes 8 st))
      let s := { s with recs := s.recs ++ [(x.chain, b)] }
      let s := match r.handle with
        | some h => s.mapHandle (keyCore x.owner) h fun y =>
            { y with st := .full, status := handleStatus 0 r.notlive 1 (r.len * r.count) }
        | none => s
      s.setChan d ch (if r.next = 0 then { x with st := .idle, addr := 0, cur := none }
        else { x with addr := r.next, cur := none })

/-- COPY_RECORD: a walking channel reads its next record, or takes the handle of the one it has and performs its next
piece (R240). -/
def execCopyRecord (die : BitVec 3) (ch : BitVec 6) (s : State) : Outcome State Fault Refusal :=
  let d := die.toNat
  let x := s.chan d ch
  if x.st != .walking then .refused .notEnabled
  else match x.cur with
    | none => .next (s.readRecord d ch)
    | some r =>
      if r.count ≤ r.piece then .refused .notEnabled
      else match s.takeHandle d ch with
        | none => .refused .notEnabled
        | some s =>
          match s.copyPieces d ch 1 with
          | .done s => .next s
          | .waits s => .next s
          | .fault .. => .refused .notEnabled

/-- COPY_RECORD_COMPLETE: the remaining pieces are performed and the record ends (R240). -/
def execCopyRecordComplete (die : BitVec 3) (ch : BitVec 6) (s : State) : Outcome State Fault Refusal :=
  let d := die.toNat
  let x := s.chan d ch
  if x.st != .walking then .refused .notEnabled
  else match x.cur, s.takeHandle d ch with
    | some r, some s =>
      (match s.copyPieces d ch (r.count - r.piece) with
       | .fault .. => .refused .notEnabled
       | .waits s => .next s
       | .done s =>
         match (s.chan d ch).st, (s.chan d ch).cur with
         | .walking, some r => .next (s.endRecord d ch r)
         | _, _ => .next s)
    | _, _ => .refused .notEnabled

/-- A held record performed again from its first unwritten piece; or the channel IDLE with OWN still 1, and the record's
handle FREE (R233, R343). -/
def State.againCopy (s : State) (d : Nat) (ch : BitVec 6) (again : Bool) : State :=
  let x := s.chan d ch
  if x.st != .held then s
  else if again then s.setChan d ch { x with st := .walking }
  else
    let s := match x.cur with
      | some { handle := some h, got := true, .. } => s.mapHandle (keyCore x.owner) h fun y =>
          { y with st := .free, status := handleStatus 0 false 1 0 }
      | _ => s
    s.setChan d ch { x with st := .idle, addr := 0, cur := none }

/-- Whether a chain has a record, from its present one on, with destination bytes in the ranges; `fuel` records are
looked at (R221). -/
def State.chainHits (s : State) (d : Nat) (k : CtxKey) (ranges : List (Nat × Nat)) : Nat → Nat → Bool
  | 0, _ => false
  | fuel + 1, a =>
    match s.readVA d (some k) a 64 with
    | .error _ => false
    | .ok (l, _) =>
      if dfield l 40 1 % 2 = 0 || !copyOk l then false
      else
        let r := copyFields l
        let lo := Int.toNat (min (pieceAddr r.dst r.dstr 0) (pieceAddr r.dst r.dstr (r.count - 1)))
        let hi := Int.toNat (max (pieceAddr r.dst r.dstr 0) (pieceAddr r.dst r.dstr (r.count - 1))) + r.len
        (!inSpad r.dst && inRanges ranges lo (hi - lo)) ||
          (decide (r.next ≠ 0) && s.chainHits d k ranges fuel r.next)

/-- The copies and scatters of a context with destination bytes in the ranges, by start number (R221). -/
def State.copiesIn (s : State) (k : CtxKey) (ranges : List (Nat × Nat)) : List Nat :=
  ((List.range 8).flatMap fun d => (s.die d).chans.filterMap fun e =>
    if (e.2.st == .walking || e.2.st == .held) && e.2.owner == k && s.chainHits d k ranges 65536 e.2.addr then
      some e.2.id else none) ++
    ((s.core (keyCore k)).gathers.filterMap fun g =>
      if g.key == k && g.scatter && g.addrs.any (fun a => inRanges ranges a 256) then some g.id else none)

/-! ## Gather and scatter (R244) -/

/-- The addresses that a vector register names. -/
def State.laneAddrs (s : State) (va : VReg) (n : Nat) : List Nat := (List.range n).map fun i => elem 64 (s.rv va) i

/-- The checks of XGATH and XSCAT at issue (R244); where both fail SR_EADDR is 0, as the rule does not order them (DESIGN
CHOICE, log 61). -/
def State.gatherCheck (s : State) (h : BitVec 6) (va : VReg) (n : Nat) : Option TrapInfo :=
  match (s.laneAddrs va n).find? (fun a => a % 16 != 0) with
  | some a => some { code := 10, eaddr := if (s.handle s.myCore h).nrows < n then 0 else word a }
  | none => if (s.handle s.myCore h).nrows < n then some { code := 10 } else none

/-- A gather or scatter started: its handle takes the state `st`. -/
def State.startGather (s : State) (h : BitVec 6) (va : VReg) (n : Nat) (scatter : Bool) (st : HState) : State :=
  let g : Gather := { key := s.iss.key, h := h, scatter := scatter, addrs := s.laneAddrs va n, id := s.starts,
                      held := false }
  { (s.mapHandle s.myCore h fun x => { x with st := st }).mapCore s.myCore (fun co =>
      { co with gathers := co.gathers ++ [g] }) with starts := s.starts + 1 }

/-- XGATH: rows gathered from global addresses (R244). -/
def semXgath (h : BitVec 6) (va nm1 : VReg) : Sem :=
  { fault := fun s => s.gatherCheck h va (nm1.toNat + 1)
    block := fun s => s.needFree h
    eff := fun s => s.startGather h va (nm1.toNat + 1) false .filling }
/-- XGATH. -/
def execXgath (h : BitVec 6) (va nm1 : VReg) (s : State) : Outcome State Fault Refusal := (semXgath h va nm1).run s

/-- XSCAT: rows scattered to global addresses (R244). -/
def semXscat (h : BitVec 6) (va nm1 : VReg) : Sem :=
  { fault := fun s => s.gatherCheck h va (nm1.toNat + 1)
    block := fun s => s.needFull h
    eff := fun s => s.startGather h va (nm1.toNat + 1) true .draining }
/-- XSCAT. -/
def execXscat (h : BitVec 6) (va nm1 : VReg) (s : State) : Outcome State Fault Refusal := (semXscat h va nm1).run s

/-- A gather or scatter replaced, by its start number. -/
def State.setGather (s : State) (n : CoreNo) (g : Gather) : State :=
  s.mapCore n fun co => { co with gathers := co.gathers.map fun x => if x.id = g.id then g else x }

/-- A gather or scatter faults at a lane and is held; the handle of a scatter whose rows have been read is no longer its
own (R232, R233). -/
def State.holdGather (s : State) (n : CoreNo) (g : Gather) (lane code ea : Nat) : State :=
  let s := s.setGather n { g with held := true }
  (if g.rows.isSome then s else s.clearHandle g.key g.h).post g.key
    { code := code, eaddr := word ea, einfo := engInfo 5 g.h.toNat lane } 5
      (some (if g.scatter then .scatter g.id else .gather g.id))

/-- A gather or scatter leaves the core. -/
def State.dropGather (s : State) (n : CoreNo) (id : Nat) : State :=
  s.mapCore n fun co => { co with gathers := co.gathers.filter fun x => x.id != id }

/-- The handle of an operation in its final state. -/
def State.endHandle (s : State) (n : CoreNo) (h : BitVec 6) (st : HState) (status : Word) : State :=
  s.mapHandle n h fun y => { y with st := st, status := status }

/-- The lanes of a gather from lane i on, each row one action (R244). -/
def State.gatherLanes (s : State) (n : CoreNo) (g : Gather) (brow : Nat) : Nat → Bool → List Nat → State
  | _, nl, [] => (s.dropGather n g.id).endHandle n g.h .full (handleStatus 0 nl 2 (256 * g.addrs.length))
  | i, nl, a :: r =>
    match s.readVA (coreDie n) (some g.key) a 256 with
    | .error (code, ea) => (s.cacheN (coreDie n) a 256).holdGather n g i code ea
    | .ok (bs, d) =>
      (((s.cacheN (coreDie n) a 256).useSamples (coreDie n) g.key a 256).writeRow n (brow + i) fullMask
        (placeBytes 0 bs)).gatherLanes n g brow (i + 1) (nl || d) r

/-- XGATH_COMPLETE: the lanes are filled and the handle becomes FULL (R244). -/
def execXgathComplete (n : CoreNo) (h : BitVec 6) (s : State) : Outcome State Fault Refusal :=
  match (s.core n).gathers.find? (fun g => g.h == h && !g.scatter && !g.held) with
  | none => .refused .notEnabled
  | some g => .next (s.gatherLanes n g (s.handle n h).brow 0 false g.addrs)

/-- The lanes of a scatter that have been read staged in ascending order, from its present lane on; the rest wait, or
the lane that faults is held (R192, R208, R220, R244). -/
def State.stageLanes (s : State) (n : CoreNo) (g : Gather) (epoch : Nat) : List (Nat × Row) → State
  | [] => s.dropGather n g.id
  | (a, v) :: r =>
    let g := { g with rows := some (v :: r.map (·.2)) }
    match s.engineWrite (.scatter g.key g.id) (coreDie n) g.key a (rowBytes v 0 256) epoch with
    | .done s => s.stageLanes n { g with lane := g.lane + 1 } epoch r
    | .fault code ea => s.holdGather n g g.lane code ea
    | .waits s => s.setGather n g

/-- The first lane of a scatter whose row cannot be read, and the row's address (R175). -/
def State.scatterFault (s : State) (n : CoreNo) (g : Gather) (brow : Nat) : Option (Nat × Nat) :=
  (List.range g.addrs.length).findSome? fun i =>
    let pl := rowPlace (s.isFused n) n (brow + i)
    if s.rowBad pl.1 pl.2 0 256 then some (i, 256 * (brow + i)) else none

/-- The rows of a scatter, and with them its handle FREE and its status (R232, R244). -/
def State.readLanes (s : State) (n : CoreNo) (g : Gather) (brow : Nat) : List Row × State :=
  ((List.range g.addrs.length).map fun i => s.row n (brow + i),
    s.endHandle n g.h .free (handleStatus 0 false 3 (256 * g.addrs.length)))

/-- XSCAT_COMPLETE: every row is read and the handle becomes FREE; then the writes are staged, as far as neither a window
nor the limit of staged blocks stops them (R244). -/
def execXscatComplete (n : CoreNo) (h : BitVec 6) (s : State) : Outcome State Fault Refusal :=
  match (s.core n).gathers.find? (fun g => g.h == h && g.scatter && !g.held) with
  | none => .refused .notEnabled
  | some g =>
    let epoch := (s.ctx g.key).copyEpoch g.id
    match g.rows with
    | some rows => .next (s.stageLanes n g epoch ((g.addrs.drop g.lane).zip rows))
    | none =>
      let brow := (s.handle n h).brow
      match s.scatterFault n g brow with
      | some (i, ea) => .next (s.holdGather n g i 14 ea)
      | none =>
        let res := s.readLanes n g brow
        .next (res.2.stageLanes n g epoch (g.addrs.zip res.1))

/-- A held gather made again, every lane from lane 0 on (DESIGN CHOICE, log 60), or a scatter, from its held lane on; or either
dropped, its handle becoming FREE, where it has not been so already (R233). -/
def State.againGather (s : State) (n : CoreNo) (id : Nat) (again : Bool) : State :=
  match (s.core n).gathers.find? (fun g => g.id == id && g.held) with
  | none => s
  | some g =>
    if again then s.setGather n { g with held := false }
    else
      let s := s.dropGather n id
      if g.rows.isSome then s
      else s.endHandle n g.h .free (handleStatus 0 false (if g.scatter then 3 else 2) 0)

end Sys2Proof.Machine
end

