-- ==== Sys2Proof/Machine/Dictionary.lean ====
section
/-! DEFINITION. Dictionary images and the store of a core (R28 to R30). -/

namespace Sys2Proof.Machine

/-- The header of an image: IDENT and COUNT, or the code and address of the fault (R28). -/
def State.dictHeader (s : State) (u a : Nat) : Except (Nat × Nat) (Nat × Nat) :=
  if a % 64 ≠ 0 then .error (10, 0)
  else match s.readVA u none a 64 with
    | .error e => .error e
    | .ok (l, _) =>
      let n := dfield l 8 2
      if n = 0 ∨ 2048 < n ∨ ofBytes (l.drop 10) ≠ 0 then .error (10, 0) else .ok (dfield l 0 8, n)

/-- The n entries of an image (R28). -/
def State.dictEntries (s : State) (u a n : Nat) : Except (Nat × Nat) (List (BitVec 384)) :=
  match s.readVA u none (a + 64) (48 * n) with
  | .error e => .error e
  | .ok (l, _) => .ok ((List.range n).map fun e => BitVec.ofNat 384 (dfield l (48 * e) 48))

/-- The entries of a list of windows. -/
def windowTotal (l : List Window) : Nat := l.foldl (fun a w => a + w.entries.length) 0

/-- The dictionaries that the other three contexts of the core reference, with their entries: their windows, and those of
shares that they have been dealt (R30, R265). -/
def State.otherDicts (s : State) (k : CtxKey) : List (Nat × Nat) :=
  let size := fun (ident : Nat) => windowTotal ((s.core (keyCore k)).dict.filter fun w => w.ident == ident)
  ((coreKeys (keyCore k)).filter (· != k)).flatMap fun j =>
    (match (s.ctx j).window with | some (ident, _) => [(ident, size ident)] | none => []) ++
      (match (s.ctx j).share.deal with | some { dict := some d, .. } => [d] | _ => [])

/-- The idents that the other three contexts of the core reference (R30). -/
def State.otherIdents (s : State) (k : CtxKey) : List Nat := (s.otherDicts k).map (·.1)

/-- Entries counted once for each ident (R30). -/
def distinctTotal : List (Nat × Nat) → Nat
  | [] => 0
  | (i, n) :: r => (if (r.map (·.1)).contains i then 0 else n) + distinctTotal r

/-- Whether a load of an image fits, and whether the dispatcher may deal a task with it (R30). -/
def State.fits (s : State) (k : CtxKey) (ident n : Nat) : Bool :=
  (s.otherIdents k).contains ident || decide (distinctTotal (s.otherDicts k) + n ≤ 2048)

/-- IDENT and COUNT of an image; none where it is rejected (R28). -/
def State.dictOf (s : State) (u a : Nat) : Option (Nat × Nat) :=
  match s.dictHeader u a with
  | .ok d => some d
  | .error _ => none

/-- Whether the dispatcher may deal a task with dictionary `a` to a context (R30); an image that is rejected waits for
no room. -/
def State.dictFits (s : State) (u : Nat) (k : CtxKey) (a : Nat) : Bool :=
  match s.dictOf u a with
  | some (ident, n) => s.fits k ident n
  | none => true

/-- Unreferenced windows are dropped, the earliest released first, until n more entries fit (R29). -/
def evict (keep : List Nat) (n : Nat) : List Window → List Window
  | [] => []
  | w :: r =>
    if windowTotal (w :: r) + n ≤ 2048 then w :: r
    else if keep.contains w.ident then w :: evict keep (n + w.entries.length) r
    else evict keep n r

/-- A context's reference to its window is released; an unreferenced window goes last in the order of release (R29). -/
def State.dropWindow (s : State) (k : CtxKey) : State :=
  match (s.ctx k).window with
  | none => s
  | some (ident, _) =>
    let s := s.mapCtx k fun c => { c with window := none }
    if (s.otherIdents k).contains ident then s
    else s.mapCore (keyCore k) fun co =>
      { co with dict := (co.dict.filter fun w => w.ident != ident) ++ co.dict.filter fun w => w.ident == ident }

/-- The image at `a` loaded into a context's window, or the code and address of the fault (R28 to R30, R348). -/
def State.loadWindow (s : State) (k : CtxKey) (a : Nat) : Except (Nat × Nat) State :=
  let u := coreDie (keyCore k)
  match s.dictHeader u a with
  | .error e => .error e
  | .ok (ident, n) =>
    let s := s.cacheN u a 64
    if (s.core (keyCore k)).dict.any (fun w => w.ident == ident) then
      .ok ((s.dropWindow k).mapCtx k fun c => { c with window := some (ident, a) })
    else if !s.fits k ident n then .error (13, 0)
    else match s.dictEntries u a n with
      | .error e => .error e
      | .ok l =>
        let s := (s.cacheN u (a + 64) (48 * n)).dropWindow k
        let keep := s.otherIdents k
        let s := s.mapCore (keyCore k) fun co =>
          { co with dict := evict keep n co.dict ++ [{ ident := ident, entries := l }] }
        .ok (s.mapCtx k fun c => { c with window := some (ident, a) })

end Sys2Proof.Machine
end

