-- ==== Sys2Proof/Machine/Links.lean ====
section
/-! DEFINITION. Paths between modules and the messages that travel on them (R286 to R289). -/

namespace Sys2Proof.Machine

/-! ## Paths (R286, R287, R289) -/

/-- The module's own number. -/
def State.ownMod (s : State) : BitVec 12 := BitVec.ofNat 12 s.torus.coord.toNat

/-- The dimension of axis i, 0 X, 1 Y, 2 Z. -/
def Torus.dim (t : Torus) (i : Nat) : Nat := bits t.dims.toNat (8 * i) 5

/-- The state of a port in PORTSTAT: 0 disabled, 1 training, 2 up, 3 failed. -/
def Torus.port (t : Torus) (p : Nat) : Nat := bits t.portstat.toNat (4 * p) 4

/-- A port's state set. -/
def Torus.setPort (t : Torus) (p st : Nat) : Torus :=
  { t with portstat := word (t.portstat.toNat - t.port p * 16 ^ p + st * 16 ^ p) }

/-- The port by which a message to another module leaves: X first, then Y, then Z, by the shorter way, ties + (R287). -/
def State.firstPort (s : State) (dst : BitVec 12) : Option Nat :=
  (List.range 3).findSome? fun i =>
    let d := s.torus.dim i
    let a := bits s.ownMod.toNat (4 * i) 4
    let b := bits dst.toNat (4 * i) 4
    let n := (b + d - a) % d
    if a = b then none else some (2 * i + (if n ≤ d - n then 0 else 1))

/-- Whether a module lies within the dimensions. -/
def Torus.inside (t : Torus) (dst : BitVec 12) : Bool :=
  (List.range 3).all fun i => decide (bits dst.toNat (4 * i) 4 < t.dim i)

/-- Whether a message to a module can be sent (R289). -/
def State.reachable (s : State) (dst : BitVec 12) : Bool :=
  dst == s.ownMod || (s.torus.inside dst &&
    (match s.firstPort dst with
     | some p => s.torus.port p == 2
     | none => true))

/-! ## Messages (R287, R288) -/

/-- KIND (R288; DEDUCED, log 56). -/
def LinkMsg.kind : LinkMsg → Nat
  | .payload .. => 0
  | .grant .. => 1
  | .member .. | .contrib .. | .collErr .. => 2
  | .reserve .. => 3
  | .answer .. | .entryAck .. | .decAck .. => 4
  | .entry .. => 5
  | .peer .. | .peerAck .. => 6
  | .dec .. => 7

/-- The SEQ of the messages of a ROUTE: the number of its job, and what of the job the message is for (DESIGN CHOICE,
log 56). -/
def jobSeq (num i : Nat) : Nat := num * 2 ^ 10 + i

/-- CH, SEQ, ARG and LEN, where the rules of the kind give them: ARG of a route reply and a route entry is the index of the
reservation, all ones in a refusal (R288; DEDUCED, log 56). -/
def LinkMsg.fields : LinkMsg → Nat × Nat × Nat × Nat
  | .payload _ _ ch q tag data => (ch.toNat, q.toNat, tag.toNat, data.length)
  | .grant _ _ ch n => (ch.toNat, 0, n, 0)
  | .member ring rank d => (ring.toNat, d.seq.toNat, rank, 64)
  | .contrib ring rank seq data => (ring.toNat, seq.toNat, rank, data.length)
  | .collErr ring seq code => (ring.toNat, seq.toNat, code, 0)
  | .reserve _ _ num x rows => (x, jobSeq num rows, 0, 0)
  | .answer _ num g => (0, jobSeq num 0, g.getD (2 ^ 32 - 1), 0)
  | .entry _ _ num id x c _ data => (x, jobSeq num id, c, data.length)
  | .entryAck _ num id err => (if err then 1 else 0, jobSeq num id, 0, 0)
  | .peer _ _ _ q packet => (q.toNat, 0, 0, packet.length)
  | .peerAck _ _ v => (0, 0, v.toNat, 0)
  | .dec _ _ num d task => (d, jobSeq num 0, task, 0)
  | .decAck _ num d => (d, jobSeq num 0, 0, 0)

/-- Bytes 19:0 of the header flit of a message (R288); the link layer's bytes 63:20 are out of the model (log 56). -/
def OutMsg.header (o : OutMsg) (own : BitVec 12) : List Byte :=
  let f := o.msg.fields
  toBytes 2 o.dst.toNat ++ toBytes 2 own.toNat ++ toBytes 1 o.msg.kind ++ toBytes 1 f.1 ++ toBytes 2 0 ++
    toBytes 4 f.2.1 ++ toBytes 4 f.2.2.1 ++ toBytes 4 f.2.2.2

/-- The flits of a message: its header and its payload (R288). -/
def LinkMsg.flits (m : LinkMsg) : Nat := 1 + ceilDiv m.fields.2.2.2 64

/-- The port by which a message leaves. -/
def State.outPort (s : State) (o : OutMsg) : Option Nat :=
  match o.via with
  | some p => some p
  | none => s.firstPort o.dst

/-- Whether the port by which a message leaves is up (R289). -/
def State.outUp (s : State) (o : OutMsg) : Bool :=
  match s.outPort o with
  | some p => s.torus.port p == 2
  | none => true

/-- A message handed to the links for another module; one whose path needs a port that is not up is not sent (R289). -/
def State.sendOut (s : State) (dst : BitVec 12) (m : LinkMsg) : State :=
  if s.reachable dst then { s with out := s.out ++ [{ dst := dst, msg := m, send := none }] } else s

/-- An answer to a module: handed to the links, or at once to the IOD of this one (R287, R289). -/
def State.answerMod (s : State) (dst : BitVec 12) (m : LinkMsg) : State :=
  if dst = s.ownMod then { s with inbox := s.inbox ++ [m] } else s.sendOut dst m

/-- A message leaves: its port is up, and no earlier message of its kind to the same module by the same way waits (R287,
R289). -/
def State.leaveOut (s : State) (idx : Nat) : Option State :=
  match s.out[idx]? with
  | none => none
  | some o =>
    if s.outUp o && !(s.out.take idx).any fun x => x.dst == o.dst && x.msg.kind == o.msg.kind && x.via == o.via then
      some { s with out := s.out.eraseIdx idx }
    else none

end Sys2Proof.Machine
end

