-- ==== Sys2Proof/Machine/Tasks.lean ====
section
/-! DEFINITION. Tasks and jobs (R253 to R272, R276 to R280): arming and counting, dealing, shares, the abort flag, the
arbiter and the budget. -/

namespace Sys2Proof.Machine

open Host (Outcome)

/-! ## The task table (R254, R255) -/

/-- Whether a die's dispatcher runs (R357). -/
def State.dieUp (s : State) (d : Nat) : Bool := s.funcready.getLsbD d

/-- The NSUCC of a record. -/
def recordSuccs (l : List Byte) : Nat := dfield l 24 1

/-- Whether a task record passes the checks of R258. -/
def recordOk (l : List Byte) : Bool :=
  decide (dfield l 0 1 = 0) && decide (dfield l 1 1 < 16) && decide (dfield l 3 1 < 2) && decide (recordSuccs l ≤ 8) &&
    decide (dfield l 25 3 = 0) && decide (dfield l 60 4 = 0) && decide (dfield l 8 8 % 64 = 0) &&
    (List.range 8).all fun i => decide (i < recordSuccs l) || decide (dfield l (28 + 4 * i) 4 = 0)

/-- The task that a record arms in a slot of generation `gen` (R254, R255). -/
def recordTask (l : List Byte) (gen : BitVec 16) (stage : Option (BitVec 3)) : Task :=
  { st := if dfield l 4 2 = 0 then .ready else .waiting, gen := gen, rank := dfield l 1 1,
    group := BitVec.ofNat 8 (dfield l 2 1), fuse := dfield l 3 1 == 1, full := dfield l 4 2, earlyc := dfield l 6 2,
    card := dfield l 8 8, tag := BitVec.ofNat 32 (dfield l 16 4), budget := dfield l 20 4,
    succ := (List.range (recordSuccs l)).map fun i => BitVec.ofNat 32 (dfield l (28 + 4 * i) 4), stage := stage }

/-- A slot appended to the ready queue of its rank (R255). -/
def State.enqueue (s : State) (d k rank : Nat) : State :=
  s.mapDie d fun x => { x with ready := tmod [] rank (fun q => q ++ [k]) x.ready }

/-- A record armed in the lowest free slot of a die's table (R258): the id and the state; none where the table is
full. -/
def State.arm (s : State) (d : Nat) (l : List Byte) (stage : Option (BitVec 3)) : Option (Nat × State) :=
  match (List.range 4096).find? (fun k => (tget ({} : Task) k (s.die d).tasks).st == .free) with
  | none => none
  | some k =>
    let gen := (tget ({} : Task) k (s.die d).tasks).gen
    let t := recordTask l gen stage
    let s := s.mapTask d k fun _ => t
    some (taskId d k gen, if t.st = .ready then s.enqueue d k t.rank else s)

/-- A slot freed (R253): its generation is incremented, it leaves the queues, and Clasp counts its end (R281). -/
def State.freeSlot (s : State) (d k : Nat) : State :=
  let t := tget ({} : Task) k (s.die d).tasks
  let s := s.mapDie d fun x =>
    { x with tasks := tput {} k { gen := t.gen + 1 } x.tasks, running := x.running.filter (· != k),
             ready := tmod [] t.rank (fun q => q.filter (· != k)) x.ready }
  match t.stage with
  | none => s
  | some v => { s with clasp := tmod {} v.toNat (fun (x : ClaspStage) => { x with insts := x.insts - 1 }) s.clasp }

/-- A counter of a task decremented by n, saturating, with the transition that results (R255, R259). -/
def State.decrement (s : State) (d k : Nat) (early : Bool) (n : Nat) : State :=
  let t := tget ({} : Task) k (s.die d).tasks
  if early then
    if t.st = .waiting then
      let s := s.mapTask d k fun t => { t with earlyc := t.earlyc - n }
      if t.earlyc ≠ 0 ∧ t.earlyc ≤ n then (s.mapTask d k fun t => { t with st := .early }).enqueue d k t.rank else s
    else s
  else
    let s := s.mapTask d k fun t => { t with full := t.full - n }
    if t.full ≠ 0 ∧ t.full ≤ n then
      match t.st with
      | .waiting => (s.mapTask d k fun t => { t with st := .ready }).enqueue d k t.rank
      | .early => s.mapTask d k fun t => { t with st := .ready }
      | _ => s
    else s

/-- A decrement that reaches its dispatcher (R254, R259): of no effect where nothing matches. -/
def State.applyDec (s : State) (m : DecMsg) : State :=
  let d := bits m.id 12 3
  let k := bits m.id 0 12
  let t := tget ({} : Task) k (s.die d).tasks
  let hit := if m.low then t.gen.toNat % 2 ^ 15 == bits m.id 16 15 else t.gen.toNat == bits m.id 16 16
  if t.st != .free && hit && bits m.id 15 1 == 0 then s.decrement d k m.early m.n else s

/-- A decrement sent to the die of its task. -/
def State.sendDec (s : State) (m : DecMsg) : State := s.mapDie (bits m.id 12 3) fun x => { x with decs := x.decs ++ [m] }

/-- A successor's counter decremented by the dispatcher of die `d`: at once on its own die, by a message to another. -/
def State.succDec (s : State) (d : Nat) (e : BitVec 32) (early : Bool) : State :=
  let m : DecMsg :=
    { src := 2 ^ 14 + d, id := bits e.toNat 0 15 + 2 ^ 16 * bits e.toNat 17 15, low := true, early := early, n := 1 }
  if bits e.toNat 12 3 = d then s.applyDec m else s.sendDec m

/-- The early decrements of a task's successors, made once (R260). -/
def State.makeEarly (s : State) (d k : Nat) : State :=
  let t := tget ({} : Task) k (s.die d).tasks
  if t.earlyMade then s
  else (t.succ.filter fun e => e.getLsbD 16).foldl (fun s e => s.succDec d e true)
    (s.mapTask d k fun t => { t with earlyMade := true })

/-- DONE: the successors are decremented in ascending order, and the slot is freed (R255). -/
def State.taskDone (s : State) (d k : Nat) : State :=
  let t := tget ({} : Task) k (s.die d).tasks
  let s := t.succ.foldl (fun s e =>
    let s := if e.getLsbD 16 && !t.earlyMade then s.succDec d e true else s
    if e.getLsbD 15 then s.succDec d e false else s) s
  s.freeSlot d k

/-! ## The job control block (R262, R263) -/

/-- A write of the dispatcher into a job control block: one that faults is dropped, with an event (R262), and the bytes for a
page in a migration window are held (R208). -/
def State.jcbWrite (s : State) (d k va : Nat) (bs : List Byte) : State :=
  let n := bs.length
  match s.writeFault d va n, s.readVA d none va n with
  | none, .ok _ => (pagesOf va n).foldl (fun s p =>
      let lo := max va (p * 2 ^ 21)
      s.jcbPage d k lo ((bs.drop (lo - va)).take (min (va + n) ((p + 1) * 2 ^ 21) - lo))) s
  | _, _ => s.jcbPut d k va bs

/-- OWNER of an open entry (R263). -/
def JEntry.ownerWord (e : JEntry) : Nat := 2 ^ 31 + (match e.owner with | some k => k.toNat | none => 0)

/-- An entry as its block holds it. -/
def JEntry.bytes (e : JEntry) : List Byte :=
  toBytes 4 e.first ++ toBytes 4 e.last ++ toBytes 4 e.cursor ++ toBytes 4 e.ownerWord

/-- NEXT and DONEC of a task written to its block. -/
def State.jcbCounts (s : State) (d k : Nat) (c : Card) : State :=
  let t := tget ({} : Task) k (s.die d).tasks
  s.jcbWrite d k c.jcb (toBytes 4 t.next ++ toBytes 4 t.donec)

/-- The fields of a job card (R262). -/
def cardOf (l : List Byte) : Card :=
  { entry := dfield l 0 8, dict := dfield l 8 8, args := dfield l 16 8, rsize := dfield l 24 4, count := dfield l 28 4,
    minch := dfield l 32 4, cpr := dfield l 36 4, ovh := dfield l 40 4, abent := dfield l 44 8, jcb := dfield l 52 8,
    mode := dfield l 60 1, jslots := dfield l 61 2 }

/-- Whether a job card keeps its limits (R262). -/
def cardOk (l : List Byte) : Bool :=
  let c := cardOf l
  decide (c.entry % 2 = 0) && decide (c.rsize ≤ 2 ^ 20) && decide (1 ≤ c.minch) && decide (c.abent % 2 = 0) &&
    decide (c.jcb % 64 = 0) && decide (c.mode < 3) && decide (1 ≤ c.jslots ∧ c.jslots ≤ 4096) &&
    decide (dfield l 63 1 = 0)

/-- The address at which the control block of a card cannot be used (R262). -/
def State.jcbBad (s : State) (d : Nat) (c : Card) : Option Nat :=
  let n := 64 + 16 * c.jslots
  match s.writeFault d c.jcb n with
  | some f => some f.2
  | none => match s.readVA d none c.jcb n with
    | .error f => some f.2
    | .ok _ => none

/-- The open entries of a block on resumption (R280). -/
def jcbOpen (l : List Byte) (n : Nat) : List JEntry :=
  (List.range n).filterMap fun i =>
    let o := 64 + 16 * i
    if dfield l (o + 12) 4 < 2 ^ 31 then none
    else some { idx := i, first := dfield l o 4, last := dfield l (o + 4) 4, cursor := dfield l (o + 8) 4, owner := none }

/-! ## Abort (R270) -/

/-- The ending of a task whose last share has ended (R255, R267). -/
def State.endTask (s : State) (d k : Nat) : State :=
  let t := tget ({} : Task) k (s.die d).tasks
  let count := match t.job with | some c => c.count | none => 0
  if t.st ≠ .running ∨ t.shares ≠ 0 then s
  else if t.abort then s.freeSlot d k
  else if count ≤ t.next ∧ t.dealt ∧ t.open_.isEmpty then s.taskDone d k
  else s

/-- The abort flag of a task set: a task not yet running is aborted, and parked members of a running one are woken
(R255, R270, R272). -/
def State.abortTask (s : State) (d k : Nat) : State :=
  let t := tget ({} : Task) k (s.die d).tasks
  match t.st with
  | .free => s
  | .running =>
    let id := taskId d k t.gen
    let s := s.mapTask d k fun t => { t with abort := true }
    let s := s.liveKeys.foldl (fun s j =>
      let c := s.ctx j
      match c.run with
      | .parked _ =>
        if c.share.held && c.share.task == id && !c.share.ending && !c.share.aborted then
          s.wake j
        else s
      | _ => s) s
    s.endTask d k
  | _ => s.freeSlot d k

/-- ABORT of a task id where it reaches the dispatcher. -/
def State.abortId (s : State) (id : Nat) : State :=
  match s.findTask id with
  | some (d, k, _) => s.abortTask d k
  | none => s

/-! ## Chunks (R263, R264, R279) -/

/-- An entry to be dealt again (R279): the task and the entry as they then stand. -/
def redeal (t : Task) (c : Card) (e : JEntry) : Task × JEntry :=
  if c.mode = 0 then ({ t with donec := t.donec + (e.cursor - e.first) }, { e with first := e.cursor })
  else (t, { e with cursor := e.first })

/-- The next chunk of a task (R264, R279): what was left open, then new records while an entry is free. -/
def nextChunk (t : Task) (c : Card) (m : Nat) : Option (Task × JEntry) :=
  if t.abort then none
  else match t.open_.find? (fun e => e.owner.isNone) with
    | some e => if c.mode = 2 then none else some (redeal t c e)
    | none =>
      if (t.next < c.count ∨ (c.count = 0 ∧ !t.dealt)) ∧ t.open_.length < c.jslots then
        let idx := ((List.range c.jslots).find? fun i => !t.open_.any fun e => e.idx == i).getD 0
        let rem_ := c.count - t.next
        let size := min rem_ (max c.minch (ceilDiv rem_ (2 * max m 1)))
        some ({ t with next := t.next + size },
          { idx := idx, first := t.next, last := t.next + size, cursor := t.next, owner := none })
      else none

/-- A chunk of a task dealt to a context: its entry is opened and written (R263, R280). -/
def State.takeChunk (s : State) (d k : Nat) (key : CtxKey) : Option (JEntry × State) :=
  let t := tget ({} : Task) k (s.die d).tasks
  match t.st, t.job with
  | .running, some c =>
    match nextChunk t c t.mem.length with
    | none => none
    | some (t', e) =>
      let e := { e with owner := some key }
      let opened := (t'.open_.filter fun x => x.idx != e.idx) ++ [e]
      let done := t'.resume && !opened.any fun x => x.owner.isNone
      let s := s.mapTask d k fun _ => { t' with open_ := opened, dealt := true, resume := t'.resume && !done }
      let s := (s.jcbCounts d k c).jcbWrite d k (c.jcb + 64 + 16 * e.idx) e.bytes
      some (e, if done then s.jcbWrite d k (c.jcb + 8) [0] else s)
  | _, _ => none

/-- The open chunk of a context ends (R263, R267): its records count, and its entry is free. -/
def State.endChunk (s : State) (key : CtxKey) : State :=
  let x := (s.ctx key).share
  let s := s.mapCtx key fun c => { c with share := { c.share with chunk := none }, budget := {} }
  match x.chunk, s.findTask x.task with
  | some ch, some (d, k, t) =>
    match t.open_.find? (fun e => e.idx == ch.entry), t.job with
    | some e, some c =>
      let s := s.mapTask d k fun t =>
        { t with donec := t.donec + (e.last - e.first), open_ := t.open_.filter fun y => y.idx != e.idx }
      (s.jcbWrite d k (c.jcb + 64 + 16 * e.idx + 12) (toBytes 4 0)).jcbCounts d k c
    | _, _ => s
  | _, _ => s

/-- SR_BUDGET at the start of a chunk; REMAIN takes the budget modulo 2^48 (R257, R277; DEDUCED, log 53). -/
def startBudget (c : Card) (size clk : Nat) : Budget :=
  if c.ovh = 0 ∧ c.cpr = 0 then {}
  else { remain := (c.ovh + size * c.cpr) % 2 ^ 48, since := clk, counting := true, off := false }

/-- x1 to x3, SR_RNDCTR, SR_BUDGET and the chunk of a context at the start of a chunk (R265, R267). -/
def Ctx.startChunk (x : Ctx) (c : Card) (e : JEntry) (clk : Nat) : Ctx :=
  let size := e.last - e.first
  let x := ((x.wx 1 (word (c.args + c.rsize * e.first))).wx 2 (word size)).wx 3 (word e.first)
  { x with
    stat := { x.stat with rndctr := word (e.first * 2 ^ 20) }
    budget := startBudget c size clk
    share := { x.share with chunk := some { entry := e.idx, first := e.first, last := e.last }, first := e.first } }

/-! ## The end of a share (R174, R267, R279) -/

/-- Whether contexts of a cluster hold a share or have been dealt one. -/
def State.clusterShares (s : State) (cl : Nat) : Bool :=
  s.liveKeys.any fun k => decide (coreCluster (keyCore k) = cl) &&
    ((s.ctx k).share.held || (s.ctx k).share.deal.isSome)

/-- A cluster is unfused at the instant its last fused share ends, and the kind of the last share that ends in it is kept
(R174). -/
def State.unfuse (s : State) (n : CoreNo) (fuse : Bool) : State :=
  let cl := coreCluster n
  let s := if s.clusterShares cl then s
    else { s with spad := { s.spad with lastEnd := tput none cl (some (fuse, s.clk)) s.spad.lastEnd } }
  if s.liveKeys.any (fun k => decide (coreCluster (keyCore k) = cl) &&
      (((s.ctx k).share.held && (s.ctx k).share.fuse) ||
        (match (s.ctx k).share.deal with | some d => d.fuse | none => false))) then s
  else { s with spad := { s.spad with fused := tput false cl false s.spad.fused } }

/-- A task has one share less, and ends with its last (R255, R267). -/
def State.dropShare (s : State) (task : Nat) : State :=
  match s.findTask task with
  | some (d, k, _) => (s.mapTask d k fun t => { t with shares := t.shares - 1 }).endTask d k
  | none => s

/-- The share of a context ends: it leaves open episodes and its window, and the last one ends the task (R29, R255,
R267, R269). -/
def State.endShare (s : State) (key : CtxKey) : State :=
  let x := (s.ctx key).share
  if !x.held then s
  else
    let s := (s.dropWindow key).mapCtx key fun c =>
      { c with share := {}, budget := {}, overrun := false, stopTrap := false, stop := .none, arrived := none }
    ((s.dropOut key).unfuse (keyCore key) x.fuse).dropShare x.task

/-- The chunk of a share that ends without TDONE stays open, to be dealt again as MODE gives: the task and the entry are
named (R279). -/
def State.orphanChunk (s : State) (task entry : Nat) : State :=
  match s.findTask task with
  | none => s
  | some (d, k, t) =>
    match t.open_.find? (fun e => e.idx == entry), t.job with
    | some e, some c =>
      let s := s.mapTask d k fun t =>
        { t with open_ := t.open_.map fun y => if y.idx = e.idx then { y with owner := none } else y }
      let s := s.jcbWrite d k (c.jcb + 64 + 16 * e.idx + 12) (toBytes 4 (2 ^ 31))
      if c.mode = 2 then (s.event 10 (d * 4096 + k) 0).abortTask d k else s
    | _, _ => s

/-- The same for the share that a context holds, where it has a chunk. -/
def State.orphan (s : State) (key : CtxKey) : State :=
  let x := (s.ctx key).share
  match x.chunk with
  | some ch => s.orphanChunk x.task ch.entry
  | none => s

/-- The context of a share that TDONE has ended becomes idle, a trap that has woken it or not; a handler in system mode goes
on to its ERET (R97, R267, R345). -/
def State.idleAfter (s : State) (key : CtxKey) : State :=
  if !(s.ctx key).sys || (s.ctx key).run == .parked [] then s.idle key else s

/-- RELEASE_COMPLETE: the first release of a context that can complete does so (R221); that of TDONE ends the share
(R267). -/
def execReleaseComplete (key : CtxKey) (s : State) : Outcome State Fault Refusal :=
  let s := s.settle key
  match (s.ctx key).releases.find? (s.releasable key) with
  | none => .refused .notEnabled
  | some r =>
    let s := s.finishRelease key r
    .next (if r.kind = .tdone ∧ !(s.ctx key).releases.contains r then (s.endShare key).idleAfter key else s)

/-! ## Instructions (R256 to R271) -/

/-- TARM: a record armed in a die's table (R258). -/
def semTarm (rd base : XReg) (off : BitVec 32) (own : Bool) (die : BitVec 3) : Sem :=
  ({ fault := fun s => (s.blockFault (s.ea base off)).or
       (if recordOk (s.block64At s.myCore (s.ea base off)) then none else some { code := 10 })
     eff := fun s =>
       let d := if own then coreDie s.myCore else die.toNat
       let q : ArmReq := { reply := some (s.iss.key, rd), record := s.block64At s.myCore (s.ea base off) }
       (s.mapDie d fun x => { x with arms := x.arms ++ [q] }).awaitX rd } : Sem).onRow
/-- TARM. -/
def execTarm (rd base : XReg) (off : BitVec 32) (own : Bool) (die : BitVec 3) (s : State) : Outcome State Fault Refusal :=
  (semTarm rd base off own die).run s

/-- TASK_ARM_REQUEST: the dispatcher arms a record, or finds its table full, and replies (R258). -/
def execTaskArmRequest (die : BitVec 3) (idx : Nat) (s : State) : Outcome State Fault Refusal :=
  match (s.die die.toNat).arms[idx]? with
  | none => .refused .notEnabled
  | some q =>
    if !s.dieUp die.toNat then .refused .notEnabled
    else
      let s := s.mapDie die.toNat fun x => { x with arms := x.arms.eraseIdx idx }
      let (id, s) := match s.arm die.toNat q.record none with
        | some (id, s) => (id, s)
        | none => (2 ^ 64 - 1, s)
      match q.reply with
      | none => .next s
      | some (key, rd) => .next (s.mapCtx key fun c => { c with replies := c.replies ++ [(rd, word id)] })

/-- ENGINE_REPLY_ARRIVAL: the reply of an engine writes its register, and ends the wait on it (R42, R256); a context
that no longer waits for it, after a reset of its die, discards it (R360). -/
def execEngineReplyArrival (key : CtxKey) (idx : Nat) (s : State) : Outcome State Fault Refusal :=
  match (s.ctx key).replies[idx]? with
  | none => .refused .notEnabled
  | some (rd, v) =>
    .next (s.mapCtx key fun c =>
      { (if c.xwait.contains rd then c.wx rd v else c) with
        replies := c.replies.eraseIdx idx, xwait := c.xwait.erase rd })

/-- TDEC: a counter of a task decremented by n (R259). -/
def semTdec (rs : XReg) (early : Bool) (n : BitVec 16) : Sem :=
  { eff := fun s =>
      s.sendDec { src := s.iss.key.toNat, id := (s.rx rs).toNat % 2 ^ 32, low := false, early := early, n := n.toNat } }
/-- TDEC. -/
def execTdec (rs : XReg) (early : Bool) (n : BitVec 16) (s : State) : Outcome State Fault Refusal :=
  (semTdec rs early n).run s

/-- TASK_DECREMENT_ARRIVAL: a decrement reaches its dispatcher, those of one sender in order (R259). -/
def execTaskDecrementArrival (die : BitVec 3) (idx : Nat) (s : State) : Outcome State Fault Refusal :=
  let l := (s.die die.toNat).decs
  match l[idx]? with
  | none => .refused .notEnabled
  | some m =>
    if !s.dieUp die.toNat || (l.take idx).any (fun x => x.src == m.src) then .refused .notEnabled
    else
      let s := (s.mapDie die.toNat fun x => { x with decs := x.decs.eraseIdx idx }).applyDec m
      .next (match m.ack with
        | some (dst, k, num, d) => s.answerMod dst (.decAck k num d)
        | none => s)

/-- The protection fault of an instruction that needs a share (R261, R266, R267, R270). -/
def State.shareFault (s : State) : Option TrapInfo := if s.me.share.held then none else some { code := 8 }

/-- JNEXT and TDONE of a context being stopped take the stop-token trap instead (R278). -/
def State.stopHere (s : State) : Option State :=
  if s.me.share.held && s.me.stop == .running && !s.me.sys then some (s.mapMe fun c => { c with stopTrap := true })
  else none

/-- TDONE: ends the open chunk and releases; the share ends with the release (R267). Its context leaves the core and becomes the
reference context as TDONE issues, as at a park: R97 and R267 do not say what it is while the release is under way (DESIGN
CHOICE, log 62). -/
def semTdone : Sem :=
  { instead := State.stopHere
    fault := State.shareFault
    eff := fun s =>
      let k := s.iss.key
      let s := (s.endChunk k).mapCtx k fun c => { c with share := { c.share with ending := true }, run := .parked [] }
      (s.startRelease k .tdone [] (s.copiesOf k)).leave k }
/-- TDONE. -/
def execTdone (s : State) : Outcome State Fault Refusal := semTdone.run s

/-- JNEXT: ends the open chunk, and takes the next one or falls through (R267; DEDUCED, log 27). -/
def semJnext (imm : BitVec 32) : Sem :=
  { instead := fun s => s.stopHere.or s.sample
    fault := State.shareFault
    eff := fun s =>
      let k := s.iss.key
      let s := s.endChunk k
      match s.findTask (s.ctx k).share.task with
      | some (d, j, { job := some c, .. }) =>
        match s.takeChunk d j k with
        | some (e, s) => (s.mapMe fun x => x.startChunk c e s.clk).jump (s.target imm)
        | none => s.wx 2 0
      | _ => s.wx 2 0 }
/-- JNEXT. -/
def execJnext (imm : BitVec 32) (s : State) : Outcome State Fault Refusal := (semJnext imm).run s

/-- The entry of a context's open chunk. -/
def State.openEntry (s : State) (key : CtxKey) : Option (Nat × Nat × Card × JEntry) :=
  let x := (s.ctx key).share
  match x.chunk, s.findTask x.task with
  | some ch, some (d, k, t) =>
    match t.open_.find? (fun e => e.idx == ch.entry), t.job with
    | some e, some c => some (d, k, c, e)
    | _, _ => none
  | _, _ => none

/-- JPROG: advances the cursor of the open chunk (R266). -/
def semJprog (rs : XReg) (imm : BitVec 32) : Sem :=
  { fault := fun s => s.shareFault.or
      (let n := (s.countOf rs imm).toNat
       match s.openEntry s.iss.key with
       | some (_, _, _, e) => if e.last < e.cursor + n then some { code := 10 } else none
       | none => if n = 0 then none else some { code := 10 })
    eff := fun s =>
      let n := (s.countOf rs imm).toNat
      match s.openEntry s.iss.key with
      | some (d, k, c, e) =>
        let s := s.mapTask d k fun t =>
          { t with open_ := t.open_.map fun y => if y.idx = e.idx then { y with cursor := y.cursor + n } else y }
        s.jcbWrite d k (c.jcb + 64 + 16 * e.idx + 8) (toBytes 4 (e.cursor + n))
      | none => s }
/-- JPROG. -/
def execJprog (rs : XReg) (imm : BitVec 32) (s : State) : Outcome State Fault Refusal := (semJprog rs imm).run s

/-- EARLY: the early decrements of the task's successors (R260). -/
def semEarly : Sem :=
  { eff := fun s =>
      if s.me.share.held then
        match s.findTask s.me.share.task with
        | some (d, k, _) => s.makeEarly d k
        | none => s
      else s }
/-- EARLY. -/
def execEarly (s : State) : Outcome State Fault Refusal := semEarly.run s

/-- FULL of the task whose share a context holds. -/
def State.fullOf (s : State) (key : CtxKey) : Nat :=
  match s.findTask (s.ctx key).share.task with
  | some (_, _, t) => t.full
  | none => 0

/-- WAITVIS: blocks while FULL is not zero, and is an acquire point (R261). -/
def semWaitvis : Sem :=
  { fault := State.shareFault
    block := fun s => if s.fullOf s.iss.key = 0 then [] else [.fullCounter]
    eff := fun s => s.acquire s.iss.key [] }
/-- WAITVIS. -/
def execWaitvis (s : State) : Outcome State Fault Refusal := semWaitvis.run s

/-- GBAR: arrives at the barrier of a group, and passes when all have arrived (R269). -/
def semGbar (g : BitVec 8) : Sem :=
  { fault := fun s => s.groupFault g
    arrive := fun s =>
      let k := s.iss.key
      if (s.ctx k).isArrived g s.iss.pcb then s else (s.arriveAt k g s.iss.pcb false).closeEpisode g
    block := fun s => if s.me.passed g s.iss.pcb then [] else [.group g]
    eff := fun s => s.mapMe fun c => c.setArrival none }
/-- GBAR. -/
def execGbar (g : BitVec 8) (s : State) : Outcome State Fault Refusal := (semGbar g).run s

/-- The abort of a task by id: at once on the context's own die, by a message to another (R270). -/
def State.sendAbort (s : State) (id : Nat) : State :=
  if bits id 12 3 = coreDie s.myCore then s.abortId id
  else s.mapDie (bits id 12 3) fun x => { x with aborts := x.aborts ++ [id] }

/-- ABORT of x[rs] (R270). -/
def semAbort (rs : XReg) : Sem := { eff := fun s => s.sendAbort ((s.rx rs).toNat % 2 ^ 32) }
/-- ABORT. -/
def execAbort (rs : XReg) (s : State) : Outcome State Fault Refusal := (semAbort rs).run s

/-- ABORT of the context's own task (R270). -/
def semAbortSelf : Sem := { fault := State.shareFault, eff := fun s => s.sendAbort s.me.share.task }
/-- ABORT with SELF. -/
def execAbortSelf (s : State) : Outcome State Fault Refusal := semAbortSelf.run s

/-- ABORT_MESSAGE_ARRIVAL: an ABORT from another die reaches the dispatcher (R270). -/
def execAbortMessageArrival (die : BitVec 3) (idx : Nat) (s : State) : Outcome State Fault Refusal :=
  match (s.die die.toNat).aborts[idx]? with
  | none => .refused .notEnabled
  | some id =>
    if !s.dieUp die.toNat then .refused .notEnabled
    else .next ((s.mapDie die.toNat fun x => { x with aborts := x.aborts.eraseIdx idx }).abortId id)

/-- ABCHK: samples the abort flag (R271, R272). -/
def semAbchk : Sem := { instead := State.sample, eff := fun s => s }
/-- ABCHK. -/
def execAbchk (s : State) : Outcome State Fault Refusal := semAbchk.run s

/-! ## Dealing (R174, R264, R276) -/

/-- Whether a context is idle and can be dealt work: its die is up, and no deal is on its way (R264, R360). -/
def State.isIdle (s : State) (key : CtxKey) : Bool :=
  let c := s.ctx key
  c.run == .idle && !c.share.held && c.share.deal.isNone && s.dieUp (coreDie (keyCore key))

/-- Whether a running task has a chunk to deal, or its bad card is still to be reported (R262, R264). -/
def hasChunk (t : Task) : Bool :=
  t.st == .running &&
    (match t.job with
     | some c => (t.bad.isSome && !t.dealt) || (nextChunk t c t.mem.length).isSome
     | none => false)

/-- Whether a task's dispatcher has a chunk for an idle context whose dictionary store it fits, fusion apart (R30, R264). -/
def State.hasFor (s : State) (d : Nat) (t : Task) (key : CtxKey) : Bool :=
  hasChunk t && t.mem.contains key && s.isIdle key &&
    (match t.job with | some c => t.bad.isSome || s.dictFits d key c.dict | none => false)

/-- Whether a running task of the other kind, started by a clk, waits for a cluster (R174): it has a chunk for an idle member
context in the cluster whose dictionary store it fits. What waiting is, R174 does not say (DESIGN CHOICE, log 26). -/
def State.otherKindWaits (s : State) (cl : Nat) (fuse : Bool) (by_ : Nat) : Bool :=
  (List.range 8).any fun d => (s.die d).running.any fun k =>
    let t := tget ({} : Task) k (s.die d).tasks
    t.fuse != fuse && decide (t.started ≤ by_) && t.mem.any fun m => decide (coreCluster (keyCore m) = cl) && s.hasFor d t m

/-- Whether the fusion of its cluster lets a context be dealt a share of a task: none of the present kind while one of the
other kind waits, and none of the last kind while one of the other kind that waited for its end does (R174). -/
def State.fusionOk (s : State) (t : Task) (key : CtxKey) : Bool :=
  let cl := coreCluster (keyCore key)
  if s.clusterShares cl then s.isFused (keyCore key) == t.fuse && !s.otherKindWaits cl t.fuse s.clk
  else match tget none cl s.spad.lastEnd with
    | some (fuse, at_) => fuse != t.fuse || !s.otherKindWaits cl fuse at_
    | none => true

/-- Whether a task's dispatcher can deal a chunk to a context (R30, R174, R264). -/
def State.canDeal (s : State) (d : Nat) (t : Task) (key : CtxKey) : Bool := s.hasFor d t key && s.fusionOk t key

/-- The running tasks of the module with their dies, the earliest started first (R264). -/
def State.runningTasks (s : State) : List (Nat × Nat × Task) :=
  let l := (List.range 8).flatMap fun d => (s.die d).running.map fun k => (d, k, tget ({} : Task) k (s.die d).tasks)
  l.mergeSort fun a b => decide (a.2.2.started ≤ b.2.2.started)

/-- The task that an idle context serves first: the earliest started that can deal to it (R264). -/
def State.served (s : State) (key : CtxKey) : Option (Nat × Nat) :=
  (s.runningTasks.find? fun x => s.canDeal x.1 x.2.2 key).map fun x => (x.1, x.2.1)

/-- The context that a task's next chunk goes to: the lowest idle member that it serves first. -/
def State.dealTo (s : State) (d k : Nat) (t : Task) : Option CtxKey :=
  t.mem.find? fun m => s.isIdle m && decide (s.served m = some (d, k))

/-- A context dealt: its cluster's fusion, and its place in the task (R174, R264). -/
def State.setDeal (s : State) (d k : Nat) (key : CtxKey) (x : Deal) : State :=
  let s := (s.mapCtx key fun c => { c with share := { c.share with deal := some x } }).mapTask d k fun t =>
    { t with shares := t.shares + 1, dealt := true, undealt := false }
  { s with spad := { s.spad with fused := tput false (coreCluster (keyCore key)) x.fuse s.spad.fused } }

/-- CHUNK_DEAL: the dispatcher of a die deals a chunk to the lowest idle member of its earliest started task (R264). -/
def execChunkDeal (die : BitVec 3) (s : State) : Outcome State Fault Refusal :=
  let d := die.toNat
  let cand := (s.die d).running.findSome? fun k =>
    let t := tget ({} : Task) k (s.die d).tasks
    (s.dealTo d k t).map fun key => (k, t, key)
  match cand with
  | none => .refused .notEnabled
  | some (k, t, key) =>
    if !s.dieUp d then .refused .notEnabled
    else
      let id := taskId d k t.gen
      match t.bad with
      | some ea =>
        .next (s.setDeal d k key { task := id, entry := 0, first := 0, last := 0, fuse := t.fuse, bad := some ea,
                                   dict := none, isFirst := t.undealt })
      | none =>
        let dict := match t.job with | some c => s.dictOf d c.dict | none => none
        match s.takeChunk d k key with
        | some (e, s) =>
          .next (s.setDeal d k key { task := id, entry := e.idx, first := e.first, last := e.last, fuse := t.fuse, bad := none,
                                     dict := dict, isFirst := t.undealt })
        | none => .refused .notEnabled

/-- The fault that a share start posts on its context, SRCE 12 (R262, R28, R340). -/
def State.postCard (s : State) (key : CtxKey) (code ea slot : Nat) : State :=
  s.post key { code := code, eaddr := word ea, einfo := engInfo 12 0 slot } 12 none

/-- Step 1 of a share start: the dictionary of the card. A rejected image faults on the first context dealt the task
(R28, R265). Where the core has room no longer, another context having loaded an image since the deal, the share starts without
a window and its context takes a fault of code 13 with SRCE 12, of which R30 says nothing; and an image that cannot be read
for a translation fault or an uncorrectable error is such a fault of its own code, for which R340 lists no SRCE, and the share
starts without a window too (DESIGN CHOICE, log 26). -/
def State.startDict (s : State) (key : CtxKey) (x : Deal) (k : Nat) (c : Card) : State :=
  match s.loadWindow key c.dict with
  | .ok s => s
  | .error (code, ea) =>
    let s := s.dropWindow key
    if code = 10 && !x.isFirst then s else s.postCard key code ea k

/-- SHARE_START: a dealt context begins its share, once the registers that it sets wait on no earlier result (R42, R265,
R338; DEDUCED, log 26). -/
def execShareStart (key : CtxKey) (s : State) : Outcome State Fault Refusal :=
  match (s.ctx key).share.deal with
  | none => .refused .notEnabled
  | some x =>
    match s.findTask x.task with
    | some (_, k, t) =>
      if [1, 2, 3].any fun r => (s.ctx key).xwait.contains r then .refused .notEnabled
      else match t.job with
      | some c =>
        let s := match x.bad with
          | some ea => s.postCard key 10 ea k
          | none => s.startDict key x k c
        let s := s.mapCore (keyCore key) fun co => { co with code := [] }
        let s := s.acquire key []
        let share : Share := { held := true, task := x.task, early := decide (t.full ≠ 0), fuse := x.fuse, tag := t.tag }
        let s := s.mapCtx key fun y =>
          { y with
            evt := false, share := share, sys := false, pc := BitVec.ofNat 55 (c.entry / 2), budget := {}
            fetchFault := none, wfe := none, wfeSys := none, waking := false, arrived := none, arrivedSys := none, overrun := false
            stopTrap := false
            stop := .none, loaded := false }
        let s := match x.bad with
          | some _ => s
          | none => s.mapCtx key fun y =>
            y.startChunk c { idx := x.entry, first := x.first, last := x.last, cursor := x.first, owner := none } s.clk
        .next (s.makeReady key)
      | none => .refused .notEnabled
    | none => .refused .notEnabled

/-! ## Arbitration (R276) -/

/-- Whether a pre-emption point lies in the last 4 clk, and the clk to the next one. -/
def State.point (s : State) (d : Nat) : Bool :=
  let p := (s.die d).period.toNat
  decide (p ≠ 0) && decide (s.clk % p ≤ 3)
/-- Whether a budget fits before the next point. -/
def State.inSlice (s : State) (d budget : Nat) : Bool :=
  let p := (s.die d).period.toNat
  decide (p = 0) || decide (budget ≤ p - s.clk % p)

/-- Whether a task has an idle member that no running task needs. -/
def State.hasIdleMember (s : State) (t : Task) : Bool :=
  (s.members t.group).any fun m => s.isIdle m && (s.served m).isNone

/-- The slot that the arbiter of a die picks (R276). -/
def State.pick (s : State) (d : Nat) : Option Nat :=
  ((List.range 16).map fun r => 15 - r).findSome? fun rank =>
    match tget [] rank (s.die d).ready with
    | [] => none
    | k :: _ =>
      let t := tget ({} : Task) k (s.die d).tasks
      if s.hasIdleMember t && (s.point d || s.inSlice d t.budget) then some k else none

/-- The start of a task (R262, R280): its card and control block are read and the block written (DEDUCED, log 26). -/
def State.startTask (s : State) (d k : Nat) : State :=
  let t := tget ({} : Task) k (s.die d).tasks
  let s := s.mapDie d fun x =>
    { x with ready := tmod [] t.rank (fun q => q.filter (· != k)) x.ready, running := x.running ++ [k] }
  let begin_ := fun (s : State) (c : Card) (bad : Option Nat) => s.mapTask d k fun t =>
    { t with st := .running, started := s.clk, mem := s.members t.group, job := some c, bad := bad, abort := t.abort || bad.isSome
             undealt := true }
  match s.readVA d none t.card 64 with
  | .error (_, ea) => begin_ s (cardOf []) (some ea)
  | .ok (l, _) =>
    let c := cardOf l
    let s := s.cacheN d t.card 64
    if !cardOk l then begin_ s c (some 0)
    else match s.jcbBad d c with
      | some ea => begin_ s c (some ea)
      | none =>
        let n := 64 + 16 * c.jslots
        let l := match s.readVA d none c.jcb n with | .ok (l, _) => l | .error _ => []
        if dfield l 8 1 = 0 then begin_ (s.jcbWrite d k c.jcb (List.replicate n 0)) c none
        else
          let es := jcbOpen l c.jslots
          let s := (begin_ s c none).mapTask d k fun t =>
            { t with next := dfield l 0 4, donec := dfield l 4 4, open_ := es, resume := !es.isEmpty,
                     dealt := decide (c.count ≠ 0) }
          let s := if es.isEmpty then s.jcbWrite d k (c.jcb + 8) [0] else s
          if c.mode = 2 && !es.isEmpty then (s.event 10 (d * 4096 + k) 0).abortTask d k else s.endTask d k

/-- ARBITER_PICK: on each clk that is a multiple of 4, with a context of the die idle, the arbiter starts the task that
R276 chooses. -/
def execArbiterPick (die : BitVec 3) (s : State) : Outcome State Fault Refusal :=
  let d := die.toNat
  let someIdle := (List.range 2048).any fun i => (s.ctx (BitVec.ofNat 14 (2048 * d + i))).run == .idle
  if s.clk % 4 ≠ 0 ∨ !s.dieUp d ∨ !someIdle ∨ (s.die d).acted = some s.clk then .refused .notEnabled
  else match s.pick d with
    | none => .refused .notEnabled
    | some k => .next ((s.mapDie d fun x => { x with acted := some s.clk }).startTask d k)

/-- PREEMPTION_POINT: SR_CYCLE reaches a multiple of PERIOD, with its event (R276). -/
def execPreemptionPoint (die : BitVec 3) (s : State) : Outcome State Fault Refusal :=
  let x := s.die die.toNat
  let p := x.period.toNat
  if p = 0 ∨ s.clk % p ≠ 0 ∨ x.point = some s.clk then .refused .notEnabled
  else .next ((s.mapDie die.toNat fun x => { x with point := some s.clk }).event 2 die.toNat (s.clk % 2 ^ 32))

/-! ## The watchdog (R277) -/

/-- An engine-discovered or asynchronous trap reaches a context: one parked in user mode becomes ready (R341, R342). -/
def State.reach (s : State) (key : CtxKey) : State :=
  match (s.ctx key).run with
  | .parked _ => if (s.ctx key).sys then s else s.wake key
  | _ => s

/-- BUDGET_OVERRUN: the budget of a chunk has counted down to zero, and its trap is due, even while parked; OFF is set when
it is taken (R277). -/
def execBudgetOverrun (key : CtxKey) (s : State) : Outcome State Fault Refusal :=
  if (s.ctx key).budget.due s.clk then
    .next ((s.mapCtx key fun c => { c with overrun := true, budget := c.budget.settle s.clk }).reach key)
  else .refused .notEnabled

end Sys2Proof.Machine
end

