-- ==== Sys2Proof/Machine/Clasp.lean ====
section
/-! DEFINITION. Clasp (R281 to R285): stage configurations, posts, evaluations and weight versions. -/

namespace Sys2Proof.Machine

open Host (Outcome)

/-- A virtual stage of Clasp. -/
def State.stage (s : State) (v : Nat) : ClaspStage := tget {} v s.clasp
/-- A stage changed. -/
def State.mapStage (s : State) (v : Nat) (f : ClaspStage → ClaspStage) : State := { s with clasp := tmod {} v f s.clasp }

/-! ## Configurations (R281, R282) -/

/-- A word of a configuration. -/
def ClaspStage.word (x : ClaspStage) (i : Nat) : Nat := (tget 0 i x.cfg).toNat
/-- AGE, LIMIT and TDIE. -/
def ClaspStage.age (x : ClaspStage) : Nat := bits (x.word 21) 0 32
/-- LIMIT; 0 while the stage has no configuration. -/
def ClaspStage.limit (x : ClaspStage) : Nat := bits (x.word 21) 32 5
/-- TDIE. -/
def ClaspStage.tdie (x : ClaspStage) : Nat := bits (x.word 21) 40 3

/-- Whether a policy row is accepted (R282). -/
def policyOk (r : Nat) : Bool :=
  decide (bits r 0 3 < 5) && decide (bits r 4 2 < 3) && decide (bits r 14 2 < 3) && decide (bits r 26 2 < 3) &&
    decide (bits r 35 2 < 3) && decide (bits r 28 4 ≤ 8) && decide (bits r 32 3 < 5) && decide (bits r 45 19 = 0) &&
    (decide (bits r 4 2 ≠ 0) || decide (bits r 6 8 = 0)) && (decide (bits r 14 2 ≠ 0) || decide (bits r 16 10 = 0)) &&
    (decide (bits r 26 2 ≠ 0) || decide (bits r 28 4 = 0)) &&
    (decide (bits r 35 2 ≠ 0) || (decide (bits r 37 8 = 0) && decide (bits r 32 3 = 0)))

/-- Whether a configuration may stand (R281). -/
def ClaspStage.configOk (x : ClaspStage) : Bool :=
  (List.range 16).all (fun i => policyOk (x.word i)) && decide (1 ≤ x.limit ∧ x.limit ≤ 16) &&
    decide (bits (x.word 21) 37 3 = 0) && decide (bits (x.word 21) 43 21 = 0) &&
    (List.range 10).all fun i => decide (x.word (22 + i) = 0)

/-- CLASP_CONFIG_WRITE: 8 bytes of a configuration; a refused write changes nothing and raises an event (R281), and an
accepted one ends a hold (R283; DEDUCED, log 36). -/
def execClaspConfigWrite (stage : BitVec 3) (word : BitVec 5) (val : Word) (s : State) : Outcome State Fault Refusal :=
  let x := s.stage stage.toNat
  let y := { x with cfg := tput 0 word.toNat val x.cfg }
  if y.configOk then .next (s.mapStage stage.toNat fun _ => { y with held := false })
  else .next (s.event 5 stage.toNat word.toNat)

/-! ## Posts (R281, R284) -/

/-- A tag posted to a queue of a stage: 0 posted, 1 dropped, 2 no configuration (R284). -/
def State.claspPost (s : State) (v q tag : Nat) : Nat × State :=
  let x := s.stage v
  if x.limit = 0 then (2, s)
  else if 256 ≤ (tget [] q x.queues).length then (1, s.mapStage v fun x => { x with overflow := true })
  else (0, s.mapStage v fun x => { x with queues := tmod [] q (fun l => l ++ [(tag, s.clk)]) x.queues })

/-! ## Evaluation (R282, R283) -/

/-- A test of a policy row: code, value and threshold. -/
def policyTest (op v th : Nat) : Bool := match op with | 0 => true | 1 => decide (v < th) | _ => decide (th ≤ v)

/-- The versions in state FREE. -/
def ClaspStage.freeVersions (x : ClaspStage) : Nat :=
  ((List.range 8).filter fun v => tget VerState.free v x.vers == .free).length

/-- Whether a policy row matches; `stash` is the number of entries of the stage's Locket table (R282). -/
def ClaspStage.matches (x : ClaspStage) (stash r : Nat) : Bool :=
  bits r 3 1 == 1 && !(tget [] (bits r 0 3) x.queues).isEmpty &&
    policyTest (bits r 4 2) x.inflight.length (bits r 6 8) && policyTest (bits r 14 2) stash (bits r 16 10) &&
    policyTest (bits r 26 2) x.freeVersions (bits r 28 4) &&
    policyTest (bits r 35 2) (tget [] (bits r 32 3) x.queues).length (bits r 37 8)

/-- The queue whose oldest tag is the oldest of those that have waited more than AGE, ties F, B, W, U, E (R283). -/
def ClaspStage.aged (x : ClaspStage) (clk : Nat) : Option Nat :=
  let old := (List.range 5).filterMap fun q => match tget [] q x.queues with
    | (_, t) :: _ => if x.age < clk - t then some (q, t) else none
    | [] => none
  if x.age = 0 then none
  else (old.find? fun e => old.all fun f => decide (e.2 ≤ f.2)).map (·.1)

/-- The queue that an evaluation chooses. -/
def ClaspStage.choose (x : ClaspStage) (stash clk : Nat) : Option Nat :=
  match x.aged clk with
  | some q => some q
  | none => ((List.range 16).find? fun i => x.matches stash (x.word i)).map fun i => bits (x.word i) 0 3

/-- The record that a stage arms for a queue, with TAG replaced (R283); none where it cannot be read or fails a check. -/
def State.template (s : State) (x : ClaspStage) (q tag : Nat) : Option (List Byte) :=
  match s.readVA 8 none (x.word (16 + q)) 64 with
  | .ok (l, _) => if recordOk l then some (l.take 16 ++ toBytes 4 tag ++ l.drop 20) else none
  | .error _ => none

/-- CLASP_EVALUATE: on a clk that is a multiple of 8, a stage makes at most one choice (R283). -/
def execClaspEvaluate (stage : BitVec 3) (s : State) : Outcome State Fault Refusal :=
  let v := stage.toNat
  let x := s.stage v
  let waiting := (List.range 5).any fun q => !(tget [] q x.queues).isEmpty
  if s.clk % 8 ≠ 0 ∨ x.limit ≤ x.insts ∨ !waiting ∨ x.held ∨ x.last = some s.clk then .refused .notEnabled
  else
    let s := s.mapStage v fun x => { x with last := some s.clk }
    match x.choose (tget ({} : LocketStage) v s.locket).entries.length s.clk with
    | none => .next s
    | some q =>
      match tget [] q x.queues with
      | [] => .next s
      | (tag, _) :: r =>
        let s := s.cacheN 8 (x.word (16 + q)) 64
        match s.template x q tag with
        | none => .next ((s.mapStage v fun x => { x with held := true }).event 6 v q)
        | some l =>
          if !s.dieUp x.tdie then .next s
          else match s.arm x.tdie l (some stage) with
            | none => .next s
            | some (_, s) =>
              .next (s.mapStage v fun x => { x with queues := tput [] q r x.queues, insts := x.insts + 1 })

/-! ## Requests (R256, R284, R285) -/

/-- A request sent to Clasp, its reply awaited. -/
def State.sendClasp (s : State) (rd : XReg) (stage : BitVec 3) (op : ClaspOp) : State :=
  let r : ClaspReq := { key := s.iss.key, xd := rd, stage := stage, op := op }
  ({ s with claspReqs := s.claspReqs ++ [r] } : State).awaitX rd

/-- The number of a queue. -/
def claspQNum : ClaspQ → Nat
  | .f => 0 | .b => 1 | .w => 2 | .u => 3 | .e => 4

/-- The version of a tag in flight. -/
def ClaspStage.version (x : ClaspStage) (tag : Nat) : Option Nat := (x.inflight.find? fun e => e.1 == tag).map (·.2)

/-- A user of a version gone: a HELD version without users becomes FREE (R285). -/
def ClaspStage.dropUser (x : ClaspStage) (tag v : Nat) : ClaspStage :=
  let n := tget 0 v x.users - 1
  { x with
    inflight := x.inflight.erase (tag, v)
    users := tput 0 v n x.users
    vers := if n = 0 ∧ tget VerState.free v x.vers = .held then tput .free v .free x.vers else x.vers }

/-- An operation of Clasp: its reply, and the state after it (R284, R285). -/
def State.claspDo (s : State) (v : Nat) (op : ClaspOp) : Nat × State :=
  let x := s.stage v
  match op with
  | .post q tag => s.claspPost v (claspQNum q) tag
  | .verget tag =>
    match x.version tag with
    | some n => (n, s)
    | none =>
      if 256 ≤ x.inflight.length then (2 ^ 64 - 1, s)
      else (x.curv, s.mapStage v fun x =>
        { x with inflight := x.inflight ++ [(tag, x.curv)], users := tput 0 x.curv (tget 0 x.curv x.users + 1) x.users })
  | .rel tag =>
    match x.version tag with
    | some n => (n, s.mapStage v fun x => x.dropUser tag n)
    | none => (2 ^ 64 - 1, s)
  | .alloc =>
    match (List.range 8).find? (fun n => tget VerState.free n x.vers == .free) with
    | some n => (n, s.mapStage v fun x => { x with vers := tput .free n .alloc x.vers })
    | none => (2 ^ 64 - 1, s)
  | .pub n =>
    if tget VerState.free n x.vers = .alloc then
      (x.curv, s.mapStage v fun x =>
        { x with
          vers := tput .free x.curv (if 0 < tget 0 x.curv x.users then .held else .free) (tput .free n .current x.vers)
          curv := n })
    else (2 ^ 64 - 1, s)

/-- Whether two requests are posts of one context to one queue. -/
def ClaspReq.samePost (a b : ClaspReq) : Bool :=
  match a.op, b.op with
  | .post q _, .post r _ => a.key == b.key && a.stage == b.stage && q == r
  | _, _ => false

/-- CLASP_REQUEST_ARRIVAL: a request reaches Clasp and is performed there; the posts of one context to one queue stay in
issue order (R256, R284). -/
def execClaspRequestArrival (idx : Nat) (s : State) : Outcome State Fault Refusal :=
  match s.claspReqs[idx]? with
  | none => .refused .notEnabled
  | some r =>
    if (s.claspReqs.take idx).any r.samePost then .refused .notEnabled
    else
      let (v, s) := ({ s with claspReqs := s.claspReqs.eraseIdx idx } : State).claspDo r.stage.toNat r.op
      .next (s.mapCtx r.key fun c => { c with replies := c.replies ++ [(r.xd, word v)] })

/-- MBPOST (R284). -/
def semMbpost (rd xt : XReg) (stage : BitVec 3) (q : ClaspQ) : Sem :=
  { eff := fun s => s.sendClasp rd stage (.post q ((s.rx xt).toNat % 2 ^ 32)) }
/-- MBPOST. -/
def execMbpost (rd xt : XReg) (stage : BitVec 3) (q : ClaspQ) (s : State) : Outcome State Fault Refusal :=
  (semMbpost rd xt stage q).run s

/-- VERGET (R285). -/
def semVerget (rd xt : XReg) (stage : BitVec 3) : Sem :=
  { eff := fun s => s.sendClasp rd stage (.verget ((s.rx xt).toNat % 2 ^ 32)) }
/-- VERGET. -/
def execVerget (rd xt : XReg) (stage : BitVec 3) (s : State) : Outcome State Fault Refusal := (semVerget rd xt stage).run s

/-- VERPUT.rel (R285). -/
def semVerputRel (rd xs : XReg) (stage : BitVec 3) : Sem :=
  { eff := fun s => s.sendClasp rd stage (.rel ((s.rx xs).toNat % 2 ^ 32)) }
/-- VERPUT.rel. -/
def execVerputRel (rd xs : XReg) (stage : BitVec 3) (s : State) : Outcome State Fault Refusal :=
  (semVerputRel rd xs stage).run s

/-- VERPUT.pub (R285). -/
def semVerputPub (rd xs : XReg) (stage : BitVec 3) : Sem :=
  { eff := fun s => s.sendClasp rd stage (.pub ((s.rx xs).toNat % 8)) }
/-- VERPUT.pub. -/
def execVerputPub (rd xs : XReg) (stage : BitVec 3) (s : State) : Outcome State Fault Refusal :=
  (semVerputPub rd xs stage).run s

/-- VERPUT.alloc (R285). -/
def semVerputAlloc (rd : XReg) (stage : BitVec 3) : Sem := { eff := fun s => s.sendClasp rd stage .alloc }
/-- VERPUT.alloc. -/
def execVerputAlloc (rd : XReg) (stage : BitVec 3) (s : State) : Outcome State Fault Refusal :=
  (semVerputAlloc rd stage).run s

end Sys2Proof.Machine
end

