-- ==== Sys2Proof/Machine/Torus.lean ====
section
/-! DEFINITION. FUNCREADY, the training of ports, and the torus window (R274, R289, R352, R357). -/

namespace Sys2Proof.Machine

open Host (Outcome)

/-! ## FUNCREADY (R274, R357) -/

/-- A launch queue. -/
def State.queue (s : State) (q : Nat) : LaunchQ := tget {} q s.queues
/-- A launch queue set. -/
def State.setQueue (s : State) (q : Nat) (x : LaunchQ) : State := { s with queues := tput {} q x s.queues }

/-- WHY are the bits that the head packet needs and that are not set, in STOPPED also; a held queue with none left returns
to RUN (R273, R274). -/
def LaunchQ.reexamine (x : LaunchQ) (ready : Word) : LaunchQ :=
  let why := x.need &&& ~~~(ready.setWidth 32)
  { x with why := why, st := if x.st = 1 ∧ why = 0 then 0 else x.st }

/-- A queue whose head packet is no longer the one that it has examined. -/
def LaunchQ.unread (x : LaunchQ) : LaunchQ := { x with need := 0, why := 0 }

/-- A bit of FUNCREADY changed, with its event; held queues are examined again (R274, R357). -/
def State.setReady (s : State) (bit : Nat) (up : Bool) : State :=
  if s.funcready.getLsbD bit = up then s
  else
    let m : Word := word (2 ^ bit)
    let r := if up then s.funcready ||| m else s.funcready &&& ~~~m
    let s := ({ s with funcready := r }).event 7 bit (b2n up)
    s.queues.foldl (fun s e => s.setQueue e.1 (e.2.reexamine r)) s

/-! ## Ports (R289) -/

/-- A port begins training (R289). -/
def State.train (s : State) (p : Nat) : State :=
  { s with torus := { s.torus.setPort p 1 with since := tput 0 p s.clk s.torus.since } }

/-- A port leaves the state up, or training, and its FUNCREADY bit clears (R289). -/
def State.dropPort (s : State) (p st : Nat) : State :=
  ({ s with torus := s.torus.setPort p st } : State).setReady (32 + p) false

/-- The bound on training, in clk (R289). -/
def trainBound : Nat := 1880000

/-- PORT_TRAINED: a training port comes up within the bound (R289). -/
def execPortTrained (port : BitVec 3) (s : State) : Outcome State Fault Refusal :=
  let p := port.toNat
  if s.torus.port p = 1 ∧ s.clk ≤ tget 0 p s.torus.since + trainBound then
    .next (({ s with torus := s.torus.setPort p 2 } : State).setReady (32 + p) true)
  else .refused .notEnabled

/-- PORT_TRAINING_TIMEOUT: a port not up within the bound shows failed, with an event (R289). -/
def execPortTrainingTimeout (port : BitVec 3) (s : State) : Outcome State Fault Refusal :=
  let p := port.toNat
  if s.torus.port p = 1 ∧ tget 0 p s.torus.since + trainBound ≤ s.clk then
    .next (({ s with torus := s.torus.setPort p 3 } : State).event 8 p 0)
  else .refused .notEnabled

/-! ## Configuration (R352) -/

/-- A refused write of the torus window, counted in CFGERR. -/
def State.cfgRefuse (s : State) (off8 : Nat) : State :=
  let n := min (bits s.torus.cfgerr.toNat 0 16 + 1) 0xFFFF
  { s with torus := { s.torus with cfgerr := word (n + 65536 * (off8 % 256)) } }

/-- Whether dimensions and coordinates may stand together. -/
def torusOk (dims coord : Nat) : Bool :=
  decide (bits dims 5 3 = 0) && decide (bits dims 13 3 = 0) && decide (bits dims 21 43 = 0) && decide (coord < 2 ^ 12) &&
    (List.range 3).all fun i =>
      decide (1 ≤ bits dims (8 * i) 5 ∧ bits dims (8 * i) 5 ≤ 16) &&
        decide (bits coord (4 * i) 4 < bits dims (8 * i) 5)

/-- DIMS_WRITE (R352). -/
def execDimsWrite (val : Word) (s : State) : Outcome State Fault Refusal :=
  if s.torus.porten = 0 && torusOk val.toNat s.torus.coord.toNat then
    .next { s with torus := { s.torus with dims := val } }
  else .next (s.cfgRefuse 0)

/-- COORD_WRITE (R352). -/
def execCoordWrite (val : Word) (s : State) : Outcome State Fault Refusal :=
  if s.torus.porten = 0 && torusOk s.torus.dims.toNat val.toNat then
    .next { s with torus := { s.torus with coord := val } }
  else .next (s.cfgRefuse 1)

/-- A ring. -/
def State.ring (s : State) (r : Nat) : Ring := tget {} r s.rings
/-- A ring changed. -/
def State.mapRing (s : State) (r : Nat) (f : Ring → Ring) : State := { s with rings := tmod {} r f s.rings }

/-- n, RANK and V of a ring, and MUL (R352). -/
def Ring.n (x : Ring) : Nat := bits x.w0.toNat 0 13
/-- RANK. -/
def Ring.rank (x : Ring) : Nat := bits x.w0.toNat 16 12
/-- V. -/
def Ring.v (x : Ring) : Bool := x.w0.getLsbD 32
/-- MUL. -/
def Ring.mul (x : Ring) : Nat := bits x.w2.toNat 0 32

/-- The contexts' slots that run a collective on a ring. -/
def State.ringSlots (s : State) (r : Nat) : List (CtxKey × Nat × CollDesc) :=
  s.liveKeys.flatMap fun k => (s.ctx k).colls.filterMap fun e =>
    match e.2.st, e.2.desc with
    | 1, some d => if d.ring.toNat = r then some (k, e.1, d) else none
    | _, _ => none

/-- Whether word 0 of a ring entry may set V (R298, R352). -/
def Ring.entryOk (x : Ring) (t : Torus) : Bool :=
  decide (1 ≤ x.n ∧ x.n ≤ 4096) && decide (x.rank < x.n) && decide (Nat.gcd x.mul x.n = 1) &&
    t.inside (BitVec.ofNat 12 (bits x.w1.toNat 0 12)) && t.inside (BitVec.ofNat 12 (bits x.w1.toNat 16 12))

/-- RING_ENTRY_WRITE (R352). -/
def execRingEntryWrite (ring word : BitVec 2) (val : Word) (s : State) : Outcome State Fault Refusal :=
  let r := ring.toNat
  let x := s.ring r
  let refuse := Outcome.next (s.cfgRefuse (32 + 4 * r + word.toNat))
  match word.toNat with
  | 0 =>
    let w := val &&& 0x10FFF1FFF
    let y : Ring := if val.getLsbD 32 then { w0 := w, w1 := x.w1, w2 := x.w2 } else { x with w0 := w }
    if !(s.ringSlots r).isEmpty || (y.v && !y.entryOk s.torus) then refuse else .next (s.mapRing r fun _ => y)
  | 1 => if x.v then refuse else .next (s.mapRing r fun x => { x with w1 := val &&& 0x30FFF0FFF })
  | 2 => if x.v then refuse else .next (s.mapRing r fun x => { x with w2 := val &&& 0xFFFFFFFF })
  | _ => .next s

end Sys2Proof.Machine
end

