-- ==== Sys2Proof/Machine/Channels.lean ====
section
/-! DEFINITION. Tensor channels (R291 to R297). -/

namespace Sys2Proof.Machine

open Host (Outcome)

/-! ## Records (R291) -/

/-- ROLE, NS, PEERMOD, PEERCH, CORE, SLOTB, HBASE, POST, VSTAGE, QUEUE and TASK of a record. -/
def ChanEnd.role (e : ChanEnd) : Nat := bits e.w0.toNat 0 2
/-- NS. -/
def ChanEnd.ns (e : ChanEnd) : Nat := bits e.w0.toNat 8 6 + 1
/-- PEERMOD. -/
def ChanEnd.peerMod (e : ChanEnd) : BitVec 12 := BitVec.ofNat 12 (bits e.w0.toNat 16 12)
/-- PEERCH. -/
def ChanEnd.peerCh (e : ChanEnd) : BitVec 8 := BitVec.ofNat 8 (bits e.w0.toNat 32 8)
/-- CORE. -/
def ChanEnd.core (e : ChanEnd) : CoreNo := BitVec.ofNat 12 (bits e.w0.toNat 48 12)
/-- SLOTB. -/
def ChanEnd.slotb (e : ChanEnd) : Nat := bits e.w1.toNat 0 32
/-- HBASE. -/
def ChanEnd.hbase (e : ChanEnd) : Nat := bits e.w1.toNat 32 6
/-- POST. -/
def ChanEnd.post (e : ChanEnd) : Nat := bits e.w1.toNat 40 2
/-- VSTAGE. -/
def ChanEnd.vstage (e : ChanEnd) : Nat := bits e.w1.toNat 44 3
/-- QUEUE. -/
def ChanEnd.queue (e : ChanEnd) : Nat := bits e.w1.toNat 48 3
/-- TASK. -/
def ChanEnd.task (e : ChanEnd) : Nat := bits e.w2.toNat 0 32

/-- A channel end. -/
def State.chEnd (s : State) (ch : BitVec 8) : ChanEnd := tget {} ch.toNat s.ends
/-- A channel end changed. -/
def State.mapEnd (s : State) (ch : BitVec 8) (f : ChanEnd → ChanEnd) : State := { s with ends := tmod {} ch.toNat f s.ends }

/-- The bits of each word of a record that hold fields; the others read zero. -/
def recordMask (w : Nat) : Word :=
  match w with
  | 0 => 0x0FFF00FF0FFF3F03
  | 1 => 0x0007733FFFFFFFFF
  | 2 => 0x00000000FFFFFFFF
  | _ => 0

/-- CHANNEL_RECORD_WRITE: 8 bytes of a record, which resets its end (R291). -/
def execChannelRecordWrite (ch : BitVec 8) (word : BitVec 2) (val : Word) (s : State) : Outcome State Fault Refusal :=
  let v := val &&& recordMask word.toNat
  .next (s.mapEnd ch fun e =>
    { w0 := if word = 0 then v else e.w0, w1 := if word = 1 then v else e.w1, w2 := if word = 2 then v else e.w2 })

/-- An error recorded in the word of a channel end, with its event (R296, R297). -/
def State.chError (s : State) (ch : BitVec 8) (code : Nat) : State :=
  let w := tget (0, 0) ch.toNat s.endErr
  ({ s with endErr := tput (0, 0) ch.toNat (code, min (w.2 + 1) 0xFFFF) s.endErr }).event 11 ch.toNat code

/-! ## Sending (R293) -/

/-- The rows of a scratchpad payload. -/
def payloadRows (len : Nat) : Nat := ceilDiv len 256

/-- The checks of CHSEND at issue (R293, R343). -/
def State.chsendFault (s : State) (spad : Bool) (ch : BitVec 8) (a len : Word) : Option TrapInfo :=
  let e := s.chEnd ch
  if e.role ≠ 1 ∨ e.core ≠ s.myCore ∨ e.broken then some { code := 8 }
  else if len = 0 ∨ e.slotb < len.toNat ∨ len.toNat % 16 ≠ 0 ∨ (!spad ∧ a.toNat % 16 ≠ 0) then some { code := 10 }
  else if spad then s.rowsFault s.myCore (a.toNat / 256) (payloadRows len.toNat)
  else none

/-- CHSEND: takes a slot of the window, and sends a payload from global memory or from the scratchpad (R293). -/
def semChsend (spad : Bool) (xt xa xl : XReg) (ch : BitVec 8) : Sem :=
  { fault := fun s => s.chsendFault spad ch (s.rx xa) (s.rx xl)
    block := fun s => if (s.chEnd ch).win = 0 then [.window ch] else []
    eff := fun s =>
      let k := s.iss.key
      let a := (s.rx xa).toNat
      let len := (s.rx xl).toNat
      let m : ChSend :=
        { id := s.starts, key := k, ch := ch, q := (s.chEnd ch).seq, tag := (s.rx xt).setWidth 32, spad := spad,
          addr := a, len := len, data := none, held := false }
      let s := { s with starts := s.starts + 1, sends := s.sends ++ [m] }
      let s := s.mapEnd ch fun e => { e with win := e.win - 1, seq := e.seq + 1, pend := e.pend + 1 }
      if spad then s else s.startRelease k (.chsend m.id) [(a, len)] (s.copiesIn k [(a, len)]) }
/-- CHSEND. -/
def execChsend (spad : Bool) (xt xa xl : XReg) (ch : BitVec 8) (s : State) : Outcome State Fault Refusal :=
  (semChsend spad xt xa xl ch).run s

/-- A CHSEND replaced in the list of those in progress. -/
def State.putSend (s : State) (m : ChSend) : State := { s with sends := s.sends.map fun x => if x.id = m.id then m else x }
/-- A CHSEND taken from the list. -/
def State.dropSend (s : State) (id : Nat) : State := { s with sends := s.sends.filter fun x => x.id != id }

/-- A CHSEND held after an engine-discovered fault, SRCE 9 (R297, R340; DEDUCED, log 37). -/
def State.holdSend (s : State) (m : ChSend) (code ea : Nat) : State :=
  (s.putSend { m with held := true }).post m.key
    { code := code, eaddr := word ea, einfo := engInfo 9 m.ch.toNat m.q.toNat } 9 (some (.chsend m.ch m.q.toNat))

/-- A payload that has been read is sent, or is a channel error where its path is unreachable (R293, R297). -/
def State.transmit (s : State) (m : ChSend) (data : List Byte) : State :=
  let e := s.chEnd m.ch
  let p := LinkMsg.payload s.ownMod m.ch e.peerCh m.q m.tag data
  if e.peerMod = s.ownMod then { s.dropSend m.id with inbox := s.inbox ++ [p] }
  else if s.reachable e.peerMod then
    { s.dropSend m.id with out := s.out ++ [{ dst := e.peerMod, msg := p, send := some { m with data := some data } }] }
  else (s.chError m.ch 1).holdSend { m with data := some data } 15 0

/-- The bytes of n rows from row r of a core's extent; none where one holds an uncorrectable error (R175, R176). -/
def State.rowsData (s : State) (n : CoreNo) (r cnt : Nat) : Option (List Byte) :=
  (List.range cnt).foldr (fun i a =>
    let pl := rowPlace (s.isFused n) n (r + i)
    if s.rowBad pl.1 pl.2 0 256 then none else a.map fun l => rowBytes (s.localRow pl.1 pl.2) 0 256 ++ l) (some [])

/-- CHSEND_SOURCE_READ: the source of the channel's next payload has been read, after its partial release; PEND falls
and the payload is sent (R293). -/
def execChsendSourceRead (ch : BitVec 8) (s : State) : Outcome State Fault Refusal :=
  match s.sends.find? (fun m => m.ch == ch) with
  | none => .refused .notEnabled
  | some m =>
    if m.held || m.data.isSome || (s.ctx m.key).releases.any (fun r => r.kind == .chsend m.id) then .refused .notEnabled
    else
      let u := unitOf m.key
      let fell := fun (s : State) => s.mapEnd ch fun e => { e with pend := e.pend - 1 }
      if m.spad then
        match s.rowsData (keyCore m.key) (m.addr / 256) (payloadRows m.len) with
        | none => .next (s.holdSend m 14 m.addr)
        | some l => .next ((fell s).transmit m (l.take m.len))
      else
        match s.readVA u (some m.key) m.addr m.len with
        | .error (code, ea) => .next ((s.cacheN u m.addr m.len).holdSend m code ea)
        | .ok (l, _) => .next ((fell ((s.cacheN u m.addr m.len).useSamples u m.key m.addr m.len)).transmit m l)

/-- A held CHSEND sent again; or dropped, with error code 1, and CHSEND refused until the record is written (R343). -/
def State.againSend (s : State) (ch : BitVec 8) (q : Nat) (again : Bool) : State :=
  match s.sends.find? (fun m => m.ch == ch && m.q.toNat == q && m.held) with
  | none => s
  | some m =>
    if again then
      let m := { m with held := false }
      match m.data with
      | none => s.putSend m
      | some data => (s.putSend m).transmit m data
    else
      let s := (s.dropSend m.id).mapEnd ch fun e =>
        { e with broken := true, pend := if m.data.isNone then e.pend - 1 else e.pend }
      { s with endErr := tput (0, 0) ch.toNat (1, (tget (0, 0) ch.toNat s.endErr).2) s.endErr }

/-- A payload taken back from the links, with an error code of its send end: its CHSEND is held (R297). -/
def State.loseSend (s : State) (o : OutMsg) (m : ChSend) (code : Nat) : State :=
  (({ s with out := s.out.erase o, sends := m :: s.sends } : State).chError m.ch code).holdSend m 15 0

/-- LINK_FLIT_LOSS: a flit of a payload of the channel, on its way to another module, is lost (R297). -/
def execLinkFlitLoss (ch : BitVec 8) (s : State) : Outcome State Fault Refusal :=
  match s.out.findSome? (fun o => match o.send with | some m => if m.ch = ch then some (o, m) else none | none => none) with
  | some (o, m) => .next (s.loseSend o m 3)
  | none => .refused .notEnabled

/-! ## Windows (R295) -/

/-- The checks of CHWIN (R295). -/
def State.chwinFault (s : State) (ch : BitVec 8) (n : Nat) : Option TrapInfo :=
  let e := s.chEnd ch
  if e.role ≠ 2 ∨ e.core ≠ s.myCore then some { code := 8 }
  else if e.ns < e.outst + n then some { code := 10 }
  else none

/-- CHWIN: grants slots of a receive end (R295). -/
def semChwin (rs : XReg) (ch : BitVec 8) (n : BitVec 24) : Sem :=
  let cnt := fun (s : State) => (s.rx rs + n.zeroExtend 64).toNat
  { fault := fun s => s.chwinFault ch (cnt s)
    eff := fun s =>
      let e := s.chEnd ch
      let c := cnt s
      let g := LinkMsg.grant s.ownMod ch e.peerCh c
      let s := s.mapEnd ch fun e => { e with outst := e.outst + c }
      if c = 0 then s
      else if e.peerMod = s.ownMod then { s with inbox := s.inbox ++ [g] }
      else if s.reachable e.peerMod then { s with out := s.out ++ [{ dst := e.peerMod, msg := g, send := none }] }
      else s.chError ch 1 }
/-- CHWIN. -/
def execChwin (rs : XReg) (ch : BitVec 8) (n : BitVec 24) (s : State) : Outcome State Fault Refusal :=
  (semChwin rs ch n).run s

/-- Whether a message is a grant of a module. -/
def LinkMsg.grantOf (src : BitVec 12) : LinkMsg → Bool
  | .grant s _ _ _ => s == src
  | _ => false

/-- The earliest grant of each module, where it is one for channel `ch`: grants of one module arrive in order (R287). -/
def State.nextGrant (s : State) (ch : BitVec 8) : Option LinkMsg :=
  s.inbox.find? fun m => match m with
    | .grant src _ c _ => c == ch && s.inbox.find? (LinkMsg.grantOf src) == some m
    | _ => false

/-- WINDOW_GRANT_ARRIVAL: the next grant of a channel reaches its send end (R295). One whose module or channel is not the
record's is discarded with error code 2, as R294 has it for payloads (DESIGN CHOICE, log 37). -/
def execWindowGrantArrival (ch : BitVec 8) (s : State) : Outcome State Fault Refusal :=
  match s.nextGrant ch with
  | some (.grant src sch c n) =>
    let s := { s with inbox := s.inbox.erase (.grant src sch c n) }
    let e := s.chEnd ch
    if e.role ≠ 1 ∨ e.peerMod ≠ src ∨ e.peerCh ≠ sch then .next (s.chError ch 2)
    else .next (s.mapEnd ch fun e => { e with win := e.win + n })
  | _ => .refused .notEnabled

/-! ## Receiving (R294) -/

/-- The handle of the slot that the next payload fills; HBASE + NS above 64 wraps to handle 0 (DESIGN CHOICE, log 37). -/
def ChanEnd.handle (e : ChanEnd) : BitVec 6 := BitVec.ofNat 6 (e.hbase + e.next)

/-- Row i of a payload that is written from a row on, the last padded with zeros (R294). -/
def State.writePayloadRow (s : State) (n : CoreNo) (row : Nat) (data : List Byte) (i : Nat) : State :=
  s.writeRow n (row + i) fullMask (placeBytes 0 ((data.drop (256 * i)).take 256))

/-- The rows of a payload from its row `lo` on. -/
def State.writePayload (s : State) (n : CoreNo) (row : Nat) (data : List Byte) (lo : Nat) : State :=
  ((List.range (payloadRows data.length)).drop lo).foldl (fun s i => s.writePayloadRow n row data i) s

/-- What follows FULL: a post to Clasp, or a decrement (R294); nothing for POST 3 and for QUEUE 5 to 7, which R291 stores and
gives no outcome (DESIGN CHOICE, log 37). -/
def State.postReceipt (s : State) (e : ChanEnd) (tag : Nat) : State :=
  match e.post with
  | 1 => if e.queue < 5 then (s.claspPost e.vstage e.queue tag).2 else s
  | 2 => s.sendDec { src := 2 ^ 14 + 8, id := e.task, low := false, early := false, n := 1 }
  | _ => s

/-- Whether a payload of a module and channel matches a record (R294). -/
def ChanEnd.fits (e : ChanEnd) (src : BitVec 12) (sch : BitVec 8) : Bool :=
  e.role == 2 && e.peerMod == src && e.peerCh == sch

/-- The payload that a receive end performs next: q follows the payloads received (R292, R294); or one that does not match
the record, and is discarded. -/
def State.nextPayload (s : State) (ch : BitVec 8) : Option (Bool × LinkMsg) :=
  let e := s.chEnd ch
  s.inbox.findSome? fun m => match m with
    | .payload src sch c q _ _ =>
      if c ≠ ch then none else if !e.fits src sch then some (false, m) else if q = e.rseq then some (true, m) else none
    | _ => none

/-- Whether the handle of the next payload can be taken: it is FREE, no bundle of its core can claim it any more on this
clk, and the die is ready (R232, R294, R360). -/
def State.canReceive (s : State) (e : ChanEnd) : Bool :=
  (s.handle e.core e.handle).st == .free && s.issueOver e.core && s.dieUp (coreDie e.core)

/-- A part of the receipt of the next payload: its handle becomes FILLING, or its next row is written (R294). -/
def State.receiptPart (s : State) (ch : BitVec 8) : Option State :=
  match s.nextPayload ch with
  | some (true, .payload _ _ _ _ _ data) =>
    let e := s.chEnd ch
    let x := s.handle e.core e.handle
    match e.fill with
    | none =>
      if s.canReceive e then
        some ((s.mapHandle e.core e.handle fun y => { y with st := .filling }).mapEnd ch fun e => { e with fill := some 0 })
      else none
    | some i =>
      if i < payloadRows data.length ∧ data.length ≤ 256 * x.nrows then
        some ((s.writePayloadRow e.core x.brow data i).mapEnd ch fun e => { e with fill := some (i + 1) })
      else none
  | _ => none

/-- CHANNEL_RECEIPT: the next payload of a channel fills its slot once the slot's handle is FREE and its die is ready
(R294, R360): what is left of its rows is written, and the handle is FULL. A payload that does not match the record is
discarded. -/
def execChannelReceipt (ch : BitVec 8) (s : State) : Outcome State Fault Refusal :=
  let e := s.chEnd ch
  match s.nextPayload ch with
  | some (false, m) => .next (({ s with inbox := s.inbox.erase m } : State).chError ch 2)
  | some (true, .payload src sch c q tag data) =>
    if e.fill.isNone && !s.canReceive e then .refused .notEnabled
    else
      let n := e.core
      let h := e.handle
      let x := s.handle n h
      let t := { s with inbox := s.inbox.erase (.payload src sch c q tag data) }
      let big := decide (256 * x.nrows < data.length)
      let t := if big then t.chError ch 4 else t.writePayload n x.brow data (e.fill.getD 0)
      let status := handleStatus (if big then 6 else 0) false 9 (if big then 0 else data.length)
      let t := t.mapHandle n h fun y => { y with st := .full, status := status }
      let t := t.mapEnd ch fun e =>
        { e with outst := e.outst - 1, next := (e.next + 1) % e.ns, rseq := e.rseq + 1, fill := none }
      .next (t.postReceipt e tag.toNat)
  | _ => .refused .notEnabled

/-! ## Status (R296) -/

/-- Whether the error word of an end is not zero. -/
def State.hasErr (s : State) (ch : BitVec 8) : Bool := tget (0, 0) ch.toNat s.endErr != (0, 0)

/-- The word of CHSTAT.snd. -/
def State.sndWord (s : State) (ch : BitVec 8) : Word :=
  let e := s.chEnd ch
  if e.role ≠ 1 ∨ e.core ≠ s.myCore then 0
  else word (e.win % 128 + 256 * (e.pend % 128) + 32768 * b2n (s.hasErr ch) + 65536 * e.seq.toNat)

/-- The word of CHSTAT.rcv; WAITH while a payload waits for its handle. -/
def State.rcvWord (s : State) (ch : BitVec 8) : Word :=
  let e := s.chEnd ch
  let waith := (match s.nextPayload ch with | some (true, _) => true | _ => false) && e.fill.isNone &&
    (s.handle e.core e.handle).st != .free
  if e.role ≠ 2 ∨ e.core ≠ s.myCore then 0
  else word (e.outst % 128 + 256 * e.next + 16384 * b2n waith + 32768 * b2n (s.hasErr ch) + 65536 * e.rseq.toNat)

/-- CHSTAT.snd. -/
def semChstatSnd (rd : XReg) (ch : BitVec 8) : Sem := aluSem rd fun s => s.sndWord ch
/-- CHSTAT.snd. -/
def execChstatSnd (rd : XReg) (ch : BitVec 8) (s : State) : Outcome State Fault Refusal := (semChstatSnd rd ch).run s

/-- CHSTAT.rcv. -/
def semChstatRcv (rd : XReg) (ch : BitVec 8) : Sem := aluSem rd fun s => s.rcvWord ch
/-- CHSTAT.rcv. -/
def execChstatRcv (rd : XReg) (ch : BitVec 8) (s : State) : Outcome State Fault Refusal := (semChstatRcv rd ch).run s

/-- A reply of an engine sent to a register of the issuing context (R256, R290). -/
def State.reply (s : State) (rd : XReg) (v : Word) : State :=
  (s.mapMe fun c => { c with replies := c.replies ++ [(rd, v)] }).awaitX rd

/-- CHSTAT.err: the error word of an end, which .clr then clears (R296). -/
def semChstatErr (rd : XReg) (ch : BitVec 8) (clr : Bool) : Sem :=
  { eff := fun s =>
      let w := tget (0, 0) ch.toNat s.endErr
      let s := s.reply rd (word (w.1 + 16 * w.2))
      if clr then { s with endErr := tput (0, 0) ch.toNat (0, 0) s.endErr } else s }
/-- CHSTAT.err. -/
def execChstatErr (rd : XReg) (ch : BitVec 8) (clr : Bool) (s : State) : Outcome State Fault Refusal :=
  (semChstatErr rd ch clr).run s

end Sys2Proof.Machine
end

