-- ==== Sys2Proof/Machine/Collectives.lean ====
section
/-! DEFINITION. Bangle collectives (R298 to R304). -/

namespace Sys2Proof.Machine

open Host (Outcome)

/-! ## Descriptors (R299) -/

/-- The element types of a collective. -/
def collType (code : Nat) : Option ETy :=
  match ETy.ofCode? code with
  | some .f32 => some .f32
  | some .bf16 => some .bf16
  | some .i32 => some .i32
  | some .i64 => some .i64
  | _ => none

/-- Bytes of an element. -/
def collBytes (t : ETy) : Nat := match t with | .bf16 => 2 | .i64 => 8 | _ => 4

/-- Whether a type is an integer type. -/
def collInt (t : ETy) : Bool := match t with | .i32 | .i64 => true | _ => false

/-- A descriptor, where no value of it is reserved (R299). -/
def collDesc (l : List Byte) : Option CollDesc :=
  match collType (dfield l 21 1) with
  | none => none
  | some t =>
    let n := dfield l 16 4
    let op := dfield l 20 1
    let e := toI 16 (dfield l 22 2)
    let ok := decide (dfield l 0 8 % 256 = 0) && decide (dfield l 8 8 % 256 = 0) && decide (1 ≤ n) &&
      decide (n * collBytes t ≤ 2 ^ 32) && decide (op % 4 < 3) && decide (op < 8) && decide (op ≠ 4) &&
      (!collInt t || decide (e = 0)) && decide (dfield l 24 1 < 4) && decide (dfield l 25 7 = 0) &&
      decide (dfield l 36 28 = 0)
    if ok then
      some { src := dfield l 0 8, dst := dfield l 8 8, count := n, op := op % 4, shard := decide (4 ≤ op), ty := t,
             e := e, ring := BitVec.ofNat 2 (dfield l 24 1), seq := BitVec.ofNat 32 (dfield l 32 4) }
    else none

/-- Bytes of a buffer. -/
def CollDesc.len (d : CollDesc) : Nat := d.count * collBytes d.ty

/-- The byte ranges of the share of a rank within a buffer: offset and length (R302). -/
def CollDesc.share (d : CollDesc) (x : Ring) (rank : Nat) : List (Nat × Nat) :=
  if d.shard then
    ((List.range (ceilDiv d.len 256)).filter fun b => decide (b * x.mul % x.n = rank)).map fun b =>
      (256 * b, min 256 (d.len - 256 * b))
  else
    let lo := rank * d.count / x.n
    let hi := (rank + 1) * d.count / x.n
    if lo = hi then [] else [(lo * collBytes d.ty, (hi - lo) * collBytes d.ty)]

/-- The bytes that the operation reads of SRC and writes of DST (R299, R302). -/
def CollDesc.reads (d : CollDesc) (x : Ring) : List (Nat × Nat) := if d.op = 2 then d.share x x.rank else [(0, d.len)]
/-- The bytes written. -/
def CollDesc.writes (d : CollDesc) (x : Ring) : List (Nat × Nat) := if d.op = 1 then d.share x x.rank else [(0, d.len)]

/-- The ranges of global memory that a collective names on this member. -/
def CollDesc.ranges (d : CollDesc) (x : Ring) : List (Nat × Nat) :=
  (d.reads x).map (fun r => (d.src + r.1, r.2)) ++ (d.writes x).map fun r => (d.dst + r.1, r.2)

/-! ## COLL and CWAIT (R299, R303) -/

/-- The collectives in flight on the module (R298). -/
def State.collsInFlight (s : State) : Nat :=
  s.liveKeys.foldl (fun a k => a + ((s.ctx k).colls.filter fun e => e.2.st == 1).length) 0

/-- A collective slot of a context. -/
def Ctx.coll (c : Ctx) (i : Nat) : CollSlot := tget {} i c.colls

/-- The checks of COLL. -/
def State.collFault (s : State) (ea : Word) : Option TrapInfo :=
  (s.blockFault ea).or
    (match collDesc (s.block64At s.myCore ea) with
     | none => some { code := 10 }
     | some d => if (s.ring d.ring.toNat).v then none else some { code := 10 })

/-- The modules next to a member of a ring, rank + 1 and rank - 1, with the Bangle port toward each (R298, R352). -/
def Ring.sides (x : Ring) : List (BitVec 12 × Nat) :=
  [(BitVec.ofNat 12 (bits x.w1.toNat 16 12), 6 + bits x.w1.toNat 33 1),
   (BitVec.ofNat 12 (bits x.w1.toNat 0 12), 6 + bits x.w1.toNat 32 1)]

/-- A message sent on a ring to the modules of `sides` whose Bangle port is up (R289, R298). -/
def State.sendRing (s : State) (sides : List (BitVec 12 × Nat)) (m : LinkMsg) : State :=
  sides.foldl (fun s e =>
    if s.torus.port e.2 = 2 then { s with out := s.out ++ [{ dst := e.1, msg := m, send := none, via := some e.2 }] }
    else s) s

/-- Whether a SEQ lies before the expected one, modulo 2^32. -/
def seqPast (next seq : BitVec 32) : Bool := next ≠ seq && decide ((next - seq).toNat < 2 ^ 31)

/-- The collective of a SEQ ends in error at this member, which tells the others (R300, R302, R304). -/
def State.ringError (s : State) (r : BitVec 2) (seq : BitVec 32) (code : Nat) : State :=
  let x := s.ring r.toNat
  if seqPast x.next seq || x.errs.any (fun e => e.1 == seq) then s
  else
    let s := s.mapRing r.toNat fun x => { x with errs := x.errs ++ [(seq, code)] }
    if x.n = 1 then s else s.sendRing x.sides (.collErr r seq code)

/-- A message of a ring that is not sent: the collective whose descriptor or data it carries is unreachable, and ends with
CODE 4 (R289, R304). -/
def State.unsent (s : State) (m : LinkMsg) : State :=
  match m with
  | .member ring _ d => s.ringError ring d.seq 4
  | .contrib ring _ seq _ => s.ringError ring seq 4
  | _ => s

/-- A message sent to the next rank of a ring, or noted as not sent where the Bangle port toward it is not up (R289). -/
def State.sendNext (s : State) (r : BitVec 2) (m : LinkMsg) : State :=
  let side := (s.ring r.toNat).sides.take 1
  if side.all fun e => s.torus.port e.2 == 2 then s.sendRing side m else s.unsent m

/-- What a member sends round its ring, where it has other members: to the next rank, which hands it on. -/
def State.tellRing (s : State) (r : BitVec 2) (m : LinkMsg) : State :=
  if (s.ring r.toNat).n = 1 then s else s.sendNext r m

/-- COLL: takes a collective slot, makes a partial release and sends the descriptor to the ring (R299). -/
def semColl (rd base : XReg) (off : BitVec 32) : Sem :=
  ({ fault := fun s => s.collFault (s.ea base off)
     eff := fun s =>
       let k := s.iss.key
       match collDesc (s.block64At s.myCore (s.ea base off)), (List.range 4).find? (fun i => (s.me.coll i).st == 0) with
       | some d, some i =>
         if 64 ≤ s.collsInFlight then s.wx rd (word (2 ^ 64 - 2))
         else
           let rs := d.ranges (s.ring d.ring.toNat)
           let s := (s.wx rd (word i)).mapMe fun c => { c with colls := tput {} i { st := 1, desc := some d, ranges := rs } c.colls }
           (s.startRelease k (.coll i) rs (s.copiesIn k rs)).tellRing d.ring
             (.member d.ring (s.ring d.ring.toNat).rank d)
       | _, _ => s.wx rd (word (2 ^ 64 - 1)) } : Sem).onRow
/-- COLL. -/
def execColl (rd base : XReg) (off : BitVec 32) (s : State) : Outcome State Fault Refusal := (semColl rd base off).run s

/-- The status word of a slot (R304). -/
def CollSlot.word (x : CollSlot) : Word :=
  match x.st with
  | 1 => Machine.word (1 + 65536 * (match x.desc with | some d => d.seq.toNat | none => 0))
  | 2 | 3 => x.status
  | _ => 0

/-- CWAIT: reads the status of a slot, and on completion acquires its buffers and frees the slot (R303). -/
def semCwait (rd xc : XReg) : Sem :=
  { fault := fun s => if (s.rx xc).toNat < 4 then none else some { code := 10 }
    eff := fun s =>
      let i := (s.rx xc).toNat
      let x := s.me.coll i
      let s := s.wx rd x.word
      if x.st < 2 then s
      else
        let s := if x.ranges.isEmpty then s else s.acquire s.iss.key x.ranges
        s.mapMe fun c => { c with colls := tput {} i {} c.colls } }
/-- CWAIT. -/
def execCwait (rd xc : XReg) (s : State) : Outcome State Fault Refusal := (semCwait rd xc).run s

/-! ## The ring (R300) -/

/-- A slot of a context ends with a status word, whose low bits are its STATE, and EVT is set (R300, R304). -/
def Ctx.endSlot (c : Ctx) (i status : Nat) : Ctx :=
  { c with
    evt := true
    colls := tput {} i { c.coll i with st := status % 4, begun := false, status := word status } c.colls }

/-- A slot of a context ends with STATE 3, and EVT is set (R300, R304). -/
def State.failColl (s : State) (k : CtxKey) (i : Nat) (d : CollDesc) (code : Nat) : State :=
  s.mapCtx k fun c => c.endSlot i (3 + 256 * code + 65536 * d.seq.toNat)

/-- Whether two members' descriptors agree (R300). -/
def CollDesc.agrees (a b : CollDesc) : Bool :=
  a.op == b.op && a.ty == b.ty && a.count == b.count && a.e == b.e && a.shard == b.shard

/-- Whether the ring's Bangle ports are up; a ring of one needs none. -/
def State.ringUp (s : State) (x : Ring) : Bool := decide (x.n = 1) || x.sides.all fun e => s.torus.port e.2 == 2

/-- Whether every page of a buffer has SH = 1 (R302). -/
def State.allShared (s : State) (u a len : Nat) : Bool :=
  (List.range ((a + len + 2 ^ 21 - 1) / 2 ^ 21 - a / 2 ^ 21)).all fun i =>
    match s.pte u ((a / 2 ^ 21 + i) * 2 ^ 21) with
    | some e => pteSH e
    | none => true

/-- The next SEQ of a ring follows: what the members sent for the last, and for those before it, is gone. -/
def State.nextSeq (s : State) (r : Nat) : State :=
  s.mapRing r fun x =>
    let old := fun (q : BitVec 32) => q == x.next || seqPast x.next q
    { x with
      next := x.next + 1
      members := x.members.filter fun m => !old m.2.seq
      data := x.data.filter fun e => !old e.2.1
      errs := x.errs.filter fun e => !old e.1 }

/-- The first fault that a collective meets on this member: code and address (R304). -/
def State.collMemFault (s : State) (x : Ring) (u : Nat) (d : CollDesc) : Option (Nat × Nat) :=
  ((d.reads x).findSome? fun r =>
    match s.readVA u none (d.src + r.1) r.2 with | .error e => some e | .ok _ => none).or
    ((d.writes x).findSome? fun r => s.writeFault u (d.dst + r.1) r.2)

/-- The bytes of SRC as a whole buffer; those that the operation does not read are zero. -/
def State.collSource (s : State) (x : Ring) (u : Nat) (d : CollDesc) : List Byte :=
  (d.reads x).foldl (fun acc g =>
    match s.readVA u none (d.src + g.1) g.2 with
    | .ok (l, _) => acc.take g.1 ++ l ++ acc.drop (g.1 + g.2)
    | .error _ => acc) (List.replicate d.len 0)

/-- The COLLs of the other members for the next SEQ have arrived. -/
def Ring.gathered (x : Ring) : Bool :=
  ((List.range x.n).filter fun m => m != x.rank).all fun m => x.members.any fun y => y.1 == m && y.2.seq == x.next

/-- The code with which the collective of the next SEQ ends in error, started or not, as far as it is known (R300, R304). -/
def Ring.ended (x : Ring) : Option Nat := (x.errs.find? fun e => e.1 == x.next).map (·.2)

/-- The first COLL of each other member for the next SEQ. -/
def Ring.firsts (x : Ring) : List (Nat × CollDesc) :=
  (List.range x.n).filterMap fun r => x.members.find? fun m => m.1 == r && m.2.seq == x.next

/-- The code with which the collective of the next SEQ ends at its start, where there is one (R300, R302, R304). -/
def State.collError (s : State) (x : Ring) (k : CtxKey) (d : CollDesc) : Option Nat :=
  match x.ended with
  | some code => some code
  | none =>
    if !s.ringUp x then some 4
    else if !x.gathered then none
    else if x.firsts.any (fun m => !m.2.agrees d) then some 1
    else if d.shard && !(s.allShared (unitOf k) d.src d.len && s.allShared (unitOf k) d.dst d.len) then some 3
    else none

/-- A slot of a context ends in error, and the next SEQ follows at every member (R300, R304). -/
def State.endColl (s : State) (k : CtxKey) (i : Nat) (d : CollDesc) (code : Nat) : State :=
  ((s.ringError d.ring d.seq code).failColl k i d code).nextSeq d.ring.toNat

/-- A member's fault ends the collective in error at every member, and its issuing context takes it (R203, R304). -/
def State.faultColl (s : State) (k : CtxKey) (i : Nat) (d : CollDesc) (code ea : Nat) : State :=
  let srce := Config.messageSrce s.fresh % 16
  ((s.endColl k i d 5).post k { code := code, eaddr := word ea, einfo := engInfo srce 0 0 } srce none).bump

/-- The collective that ends in error with a repeated SEQ of this member: the earliest of the ring for which it has sent no
data, so that no member has performed it (R300; DEDUCED, log 42). -/
def State.spoiled (s : State) (r : Nat) : BitVec 32 :=
  let x := s.ring r
  if (s.ringSlots r).any fun e => ((s.ctx e.1).coll e.2.1).begun then x.next + 1 else x.next

/-- COLLECTIVE_START: a repeated SEQ ends in error, and with it the collective that follows; or every member's COLL for
the next SEQ has arrived, and the collective starts, SRC being read and sent to the other members, or it ends in error
(R300; DEDUCED, log 42). An end sets EVT ahead of an evaluation of its context on the same clk (R99). -/
def execCollectiveStart (ring : BitVec 2) (s : State) : Outcome State Fault Refusal :=
  let r := ring.toNat
  let x := s.ring r
  let slots := s.ringSlots r
  let sent := slots.filter fun e =>
    !(s.ctx e.1).releases.any (fun y => y.kind == .coll e.2.1) && !((s.ctx e.1).coll e.2.1).begun
  match sent.find? (fun e => seqPast x.next e.2.2.seq) with
  | some (k, i, d) => s.signal k ((s.failColl k i d 2).ringError ring (s.spoiled r) 2)
  | none =>
    if slots.any fun e => ((s.ctx e.1).coll e.2.1).begun then .refused .notEnabled
    else match sent.find? (fun e => e.2.2.seq == x.next) with
      | none => .refused .notEnabled
      | some (k, i, d) =>
        match s.collError x k d with
        | some code => s.signal k (s.endColl k i d code)
        | none =>
          if !x.gathered then .refused .notEnabled
          else
            let u := unitOf k
            match s.collMemFault x u d with
            | some (code, ea) => s.signal k (s.faultColl k i d code ea)
            | none =>
              let own := s.collSource x u d
              let s := s.mapCtx k fun c => { c with colls := tput {} i { c.coll i with begun := true } c.colls }
              .next ((s.mapRing r fun x => { x with data := x.data ++ [(x.rank, d.seq, own)] }).tellRing ring
                (.contrib ring x.rank d.seq own))

/-- A message of a ring arrives: it is kept, unless this member has passed its SEQ, and handed on to the next rank unless
that one sent it (R298 to R300). -/
def State.ringArrive (s : State) (m : LinkMsg) : State :=
  match m with
  | .member ring rank d =>
    let x := s.ring ring.toNat
    let s := if seqPast x.next d.seq then s else s.mapRing ring.toNat fun x => { x with members := x.members ++ [(rank, d)] }
    if (x.rank + 1) % x.n = rank then s else s.sendNext ring m
  | .contrib ring rank seq data =>
    let x := s.ring ring.toNat
    let s := if seqPast x.next seq then s else s.mapRing ring.toNat fun x => { x with data := x.data ++ [(rank, seq, data)] }
    if (x.rank + 1) % x.n = rank then s else s.sendNext ring m
  | .collErr ring seq code => s.ringError ring seq code
  | _ => s

/-! ## The sum (R301) -/

/-- What the members contribute to an element: the exact sum, whether a NaN, +infinity or -infinity occurs, and INX and
SAT. -/
structure Contrib where
  q : Int := 0
  nan : Bool := false
  pinf : Bool := false
  ninf : Bool := false
  inx : Bool := false
  sat : Bool := false
  deriving DecidableEq, Repr

/-- Qmax. -/
def qmax : Nat := 2 ^ 115 - 1

/-- One member's contribution of an element (R301). -/
def contribute (t : ETy) (e : Int) (a : Contrib) (v : Nat) : Contrib :=
  match t with
  | .i32 => { a with q := a.q + toI 32 v }
  | .i64 => { a with q := a.q + toI 64 v }
  | _ =>
    match t.fmt.decode v with
    | .nan => { a with nan := true }
    | .inf neg => if neg then { a with ninf := true } else { a with pinf := true }
    | .fin neg m ex =>
      let d := ex - (e - 96)
      let c := if 0 ≤ d then m * 2 ^ d.toNat else m / 2 ^ (-d).toNat
      let inx := decide (d < 0) && decide (m % 2 ^ (-d).toNat ≠ 0)
      let sat := decide (qmax < c)
      let c : Nat := if sat then qmax else c
      { a with q := a.q + (if neg then -(c : Int) else c), inx := a.inx || inx, sat := a.sat || sat }

/-- The result of an element and its flags OVF and NAN (R301). -/
def collResult (t : ETy) (e : Int) (a : Contrib) : Nat × Bool × Bool :=
  match t with
  | .i32 => let r := toIntCvt 32 true .rz 0 (fvOfInt a.q 0); (r.1, decide (r.2 ≠ 0), false)
  | .i64 => let r := toIntCvt 64 true .rz 0 (fvOfInt a.q 0); (r.1, decide (r.2 ≠ 0), false)
  | _ =>
    if a.nan || (a.pinf && a.ninf) then (t.fmt.qnan, false, true)
    else if a.pinf then ((t.fmt.rne (.inf false)).1, false, false)
    else if a.ninf then ((t.fmt.rne (.inf true)).1, false, false)
    else
      let r := t.fmt.rne (fvOfInt a.q (e - 96))
      (r.1, Nat.land r.2 fOVF ≠ 0, false)

/-- The bytes of every element's result, and the flags INX, SAT, OVF and NAN of the status word. -/
def collReduce (d : CollDesc) (srcs : List (List Byte)) : List Byte × Nat :=
  let w := collBytes d.ty
  let rs := (List.range d.count).map fun i =>
    let a := srcs.foldl (fun a l => contribute d.ty d.e a (dfield l (i * w) w)) {}
    (a, collResult d.ty d.e a)
  (rs.flatMap fun r => toBytes w r.2.1,
    4 * b2n (rs.any fun r => r.1.inx) + 8 * b2n (rs.any fun r => r.1.sat) + 16 * b2n (rs.any fun r => r.2.2.1) +
      32 * b2n (rs.any fun r => r.2.2.2))

/-! ## Completion (R300, R302) -/

/-- What DST receives as a whole buffer, of which the operation writes its ranges, and the flags. -/
def collData (x : Ring) (d : CollDesc) : List Byte × Nat :=
  let srcOf := fun (r : Nat) => match x.data.find? (fun m => m.1 == r && m.2.1 == d.seq) with | some m => m.2.2 | none => []
  if d.op = 2 then
    ((List.range x.n).foldl (fun acc r =>
      let src := srcOf r
      (d.share x r).foldl (fun acc g => acc.take g.1 ++ (src.drop g.1).take g.2 ++ acc.drop (g.1 + g.2)) acc)
      (List.replicate d.len 0), 0)
  else collReduce d ((List.range x.n).map srcOf)

/-- COLLECTIVE_COMPLETE: with every member's contribution here the member's DST writes are committed, its status is
complete and EVT is set (R300), ahead of an evaluation of its context on the same clk (R99); an error at another member, or a
lost Bangle port, ends it, and so does a fault at this one (R304; DEDUCED, log 42). -/
def execCollectiveComplete (ring : BitVec 2) (s : State) : Outcome State Fault Refusal :=
  let r := ring.toNat
  let x := s.ring r
  match (s.ringSlots r).find? (fun e => ((s.ctx e.1).coll e.2.1).begun) with
  | none => .refused .notEnabled
  | some (k, i, d) =>
    let u := unitOf k
    match x.ended with
    | some code => s.signal k (s.endColl k i d code)
    | none =>
      if !((List.range x.n).all fun m => x.data.any fun y => y.1 == m && y.2.1 == d.seq) then .refused .notEnabled
      else match (d.writes x).findSome? (fun w => s.writeFault u (d.dst + w.1) w.2) with
        | some (code, ea) => s.signal k (s.faultColl k i d code ea)
        | none =>
          match s.migGate (.coll k i) u ((d.writes x).flatMap fun w => pagesOf (d.dst + w.1) w.2).eraseDups with
          | none => .refused .notEnabled
          | some (true, s) => .next s
          | some (false, s) =>
            let (data, flags) := collData x d
            let s := (d.writes x).foldl (fun s g => s.commitBytes u (d.dst + g.1) ((data.drop g.1).take g.2)) s
            s.signal k ((s.mapCtx k fun c => c.endSlot i (2 + flags + 65536 * d.seq.toNat)).nextSeq r)

end Sys2Proof.Machine
end

