-- ==== Sys2Proof/Machine/Routing.lean ====
section
/-! DEFINITION. Expert routing (R305 to R310, R381), and the messages of other modules. -/

namespace Sys2Proof.Machine

open Host (Outcome)

/-! ## The local expert table (R305, DESIGN CHOICE, log 14) -/

/-- A local expert. -/
def State.expert (s : State) (x : Nat) : Expert := tget {} x s.experts

/-- EXPERT_TABLE_WRITE: word 0 holds RBASE, word 1 CAP in [15:0] and EROWS in [20:16]; a write resets COUNT (R305,
DESIGN CHOICE, log 14). -/
def execExpertTableWrite (lx : BitVec 8) (word : Bool) (val : Word) (s : State) : Outcome State Fault Refusal :=
  let e := s.expert lx.toNat
  let e := if word then { e with cap := bits val.toNat 0 16, erows := bits val.toNat 16 5 }
    else { e with rbase := val.toNat / 256 * 256 }
  .next { s with experts := tput {} lx.toNat { e with count := 0 } s.experts }

/-- A reservation at a local expert, in one action (R308): the entry's number where it is granted. -/
def State.reserve (s : State) (x rows : Nat) : Option Nat × State :=
  let e := s.expert x
  if e.count < e.cap ∧ e.erows = rows then
    (some e.count, { s with experts := tput {} x { e with count := e.count + 1 } s.experts })
  else (none, s)

/-- The address of entry c of a local expert (R305). -/
def State.entryVA (s : State) (x c : Nat) : Nat := (s.expert x).rbase + 256 * (s.expert x).erows * c

/-- An entry committed by the memory agents; true where its translation faults, with an event (R308). -/
def State.commitEntry (s : State) (x c : Nat) (data : List Byte) : Bool × State :=
  match s.writeFault 8 (s.entryVA x c) data.length with
  | some f => (true, s.event 12 x (f.2 % 2 ^ 32))
  | none => (false, s.commitBytes 8 (s.entryVA x c) data)

/-! ## Descriptors (R306) -/

/-- The rows that a ROUTE names: first row and count. -/
def routeRows (l : List Byte) : List (Nat × Nat) :=
  let ntok := dfield l 0 2
  [(dfield l 6 2, ntok * dfield l 2 1), (dfield l 8 2, ceilDiv ntok 16), (dfield l 10 2, ceilDiv (dfield l 4 2) 64),
    (dfield l 12 2, 1), (dfield l 14 2, dfield l 3 1 * dfield l 16 1)]

/-- Whether the fields of a descriptor keep their limits (R306). -/
def routeOk (l : List Byte) : Bool :=
  let ntok := dfield l 0 2
  decide (1 ≤ ntok ∧ ntok ≤ 1024) && decide (1 ≤ dfield l 2 1 ∧ dfield l 2 1 ≤ 16) &&
    decide (1 ≤ dfield l 3 1 ∧ dfield l 3 1 ≤ 16) && decide (1 ≤ dfield l 4 2 ∧ dfield l 4 2 ≤ 256) &&
    decide (1 ≤ dfield l 16 1 ∧ dfield l 16 1 ≤ 64) && decide (ntok ≤ 16 * dfield l 16 1) &&
    decide (dfield l 17 3 = 0) && decide (dfield l 24 40 = 0)

/-- Field bytes of the rows of a core from row r, as one list, without regard to errors. -/
def State.rowsBytes (s : State) (n : CoreNo) (r cnt : Nat) : List Byte :=
  (List.range cnt).flatMap fun i => rowBytes (s.row n (r + i)) 0 256

/-- The job that a descriptor gives, read at issue (R306; DEDUCED, log 43). -/
def State.routeJob (s : State) (n : CoreNo) (l : List Byte) : RouteJob :=
  let ntok := dfield l 0 2
  let ne := dfield l 4 2
  let cs := s.rowsBytes n (dfield l 8 2) (ceilDiv ntok 16)
  let ms := s.rowsBytes n (dfield l 10 2) (ceilDiv ne 64)
  let ds := s.rowsBytes n (dfield l 12 2) 1
  { tr := dfield l 2 1, trow := dfield l 6 2, lrow := dfield l 14 2, lrpd := dfield l 16 1, seqb := dfield l 20 4,
    toks := (List.range ntok).map fun t =>
      (dfield cs (16 * t) 2, dfield cs (16 * t + 2) 2, dfield cs (16 * t + 4) 4, dfield cs (16 * t + 8) 4),
    map := (List.range ne).map fun e => (bits (dfield ms (4 * e) 4) 0 4, bits (dfield ms (4 * e) 4) 4 8),
    dests := (List.range (dfield l 3 1)).map fun d => (dfield ds (16 * d) 2, dfield ds (16 * d + 4) 4),
    num := s.starts, tok := 0, rank := 0, phase := .ask, entries := [], granted := 0, decd := [], waits := [] }

/-- Whether the rows that a descriptor names hold no reserved bit, and every expert's destination exists (R306). -/
def State.routeRowsOk (s : State) (n : CoreNo) (l : List Byte) : Bool :=
  let ntok := dfield l 0 2
  let ne := dfield l 4 2
  let nd := dfield l 3 1
  let cs := s.rowsBytes n (dfield l 8 2) (ceilDiv ntok 16)
  let ms := s.rowsBytes n (dfield l 10 2) (ceilDiv ne 64)
  let ds := s.rowsBytes n (dfield l 12 2) 1
  (List.range ntok).all (fun t => decide (dfield cs (16 * t + 12) 4 = 0)) &&
    (List.range ne).all (fun e => decide (dfield ms (4 * e) 4 < 2 ^ 12) && decide (bits (dfield ms (4 * e) 4) 0 4 < nd)) &&
    (List.range nd).all fun d =>
      decide (dfield ds (16 * d) 2 < 2 ^ 12) && decide (dfield ds (16 * d + 2) 2 = 0) && decide (dfield ds (16 * d + 8) 8 = 0)

/-- The checks of ROUTE at issue (R306). -/
def State.routeFault (s : State) (ea : Word) : Option TrapInfo :=
  let n := s.myCore
  let l := s.block64At n ea
  (s.blockFault ea).or
    (if !routeOk l || s.me.route.busy then some { code := 10 }
     else ((routeRows l).findSome? fun r => s.rowsFault n r.1 r.2).or
       (if ((routeRows l).drop 1).take 3 |>.any (fun r => (s.rowsData n r.1 r.2).isNone) then some { code := 14 }
        else if s.routeRowsOk n l then none else some { code := 10 }))

/-! ## Placement (R308) -/

/-- The choice that a job stands at. -/
def RouteJob.choice (j : RouteJob) : Nat :=
  match j.toks[j.tok]? with
  | some (e0, e1, _, _) => if j.rank = 0 then e0 else e1
  | none => 0

/-- The gate of the choice. -/
def RouteJob.gate (j : RouteJob) : Nat :=
  match j.toks[j.tok]? with
  | some (_, _, g0, g1) => if j.rank = 0 then g0 else g1
  | none => 0

/-- The job moves on from a refused choice, past choices of experts at or above NE: the job at its next reservation, and
the tokens dropped on the way; `fuel` choices are looked at. -/
def RouteJob.refused : Nat → RouteJob → Nat → RouteJob × Nat
  | 0, j, n => (j, n)
  | fuel + 1, j, n =>
    let next : RouteJob × Nat := if j.rank = 0 then ({ j with rank := 1 }, n) else ({ j with tok := j.tok + 1, rank := 0 }, n + 1)
    let j := next.1
    if j.toks.length ≤ j.tok then ({ j with phase := .ended }, next.2)
    else if j.choice < j.map.length then ({ j with phase := .ask }, next.2)
    else RouteJob.refused fuel j next.2

/-- A job brought to the first reservation from where it stands. -/
def RouteJob.settle (j : RouteJob) : RouteJob × Nat :=
  if j.toks.length ≤ j.tok then ({ j with phase := .ended }, 0)
  else if j.choice < j.map.length then ({ j with phase := .ask }, 0)
  else j.refused (2 * j.toks.length + 2) 0

/-- A job and the tokens it dropped put back into a context. -/
def Ctx.setJob (c : Ctx) (x : RouteJob × Nat) : Ctx :=
  { c with job := some x.1, route := { c.route with dropped := c.route.dropped + x.2 } }

/-- ROUTE: starts the routing of tokens (R306, R308); counts and the status word are set to zero (R310). -/
def semRoute (base : XReg) (off : BitVec 32) : Sem :=
  ({ fault := fun s => s.routeFault (s.ea base off)
     eff := fun s =>
       let j := s.routeJob s.myCore (s.block64At s.myCore (s.ea base off))
       ({ s with starts := s.starts + 1 } : State).mapMe fun c =>
         ({ c with route := { busy := true } } : Ctx).setJob j.settle } : Sem).onRow
/-- ROUTE. -/
def execRoute (base : XReg) (off : BitVec 32) (s : State) : Outcome State Fault Refusal := (semRoute base off).run s

/-- The destination and local expert of a choice. -/
def RouteJob.place (j : RouteJob) : Nat × Nat := j.map.getD j.choice (0, 0)
/-- The module of a destination. -/
def RouteJob.module (j : RouteJob) (d : Nat) : BitVec 12 := BitVec.ofNat 12 (j.dests.getD d (0, 0)).1

/-- ROUTE_RESERVATION: the next reservation is made at its destination: granted or refused in one action on this module,
sent to another, or refused where the destination is unreachable (R308). -/
def execRouteReservation (k : CtxKey) (s : State) : Outcome State Fault Refusal :=
  match (s.ctx k).job with
  | none => .refused .notEnabled
  | some j =>
    if j.phase ≠ .ask then .refused .notEnabled
    else
      let (d, x) := j.place
      let m := j.module d
      let put := fun (s : State) (p : RoutePhase) => s.mapCtx k fun c => { c with job := some { j with phase := p } }
      if m = s.ownMod then
        let (g, s) := s.reserve x (j.tr + 1)
        .next (put s (.answered g))
      else if s.reachable m then
        .next (put { s with out := s.out ++ [{ dst := m, msg := .reserve s.ownMod k j.num x (j.tr + 1), send := none }] } .away)
      else .next ((put s (.answered none)).mapCtx k fun c => { c with route := { c.route with err := true } })

/-- The header of an entry (R307). -/
def RouteJob.header (j : RouteJob) (own : BitVec 12) : List Byte :=
  toBytes 4 j.tok ++ toBytes 2 own.toNat ++ toBytes 2 j.choice ++ toBytes 4 j.gate ++
    toBytes 4 ((j.seqb + j.tok) % 2 ^ 24 + 2 ^ 24 * j.rank)

/-- The task of a destination. -/
def RouteJob.taskOf (j : RouteJob) (d : Nat) : Nat := (j.dests.getD d (0, 0)).2

/-- An entry sent to its destination (R308): kept until it is acknowledged, and handed to the links or to the memory agents
of this module; an unreachable one is lost, and ERR is set. -/
def State.sendEntry (s : State) (k : CtxKey) (j : RouteJob) (e : RouteEntry) : State :=
  let m := j.module e.d
  let msg := LinkMsg.entry s.ownMod k j.num e.id e.x e.c (j.taskOf e.d) e.data
  if s.reachable m then
    (s.answerMod m msg).mapCtx k fun c => { c with job := c.job.map fun j => { j with entries := j.entries ++ [e] } }
  else s.mapCtx k fun c => { c with route := { c.route with err := true } }

/-- A granted token: its header joins the send list, and the header and token rows are sent (R308). Rows that hold an
uncorrectable error post a fault that is not held, and their bytes are sent as they are (DESIGN CHOICE, log 43). -/
def State.placeToken (s : State) (k : CtxKey) (j : RouteJob) (c : Nat) : State :=
  let n := keyCore k
  let (d, x) := j.place
  let hdr := j.header s.ownMod
  let cnt := tget 0 d (s.ctx k).route.sent
  let s := s.writeRow n (j.lrow + d * j.lrpd + cnt / 16) (byteRange (16 * (cnt % 16)) 16) (placeBytes (16 * (cnt % 16)) hdr)
  let rows := s.rowsBytes n (j.trow + j.tok * j.tr) j.tr
  let s := if (s.rowsData n (j.trow + j.tok * j.tr) j.tr).isNone then
      let srce := Config.messageSrce s.fresh % 16
      (s.post k { code := 14, eaddr := word (256 * (j.trow + j.tok * j.tr)), einfo := engInfo srce 0 0 } srce none).bump
    else s
  let e : RouteEntry := { id := j.granted, d := d, x := x, c := c, data := hdr ++ List.replicate 240 0 ++ rows }
  let s := s.mapCtx k fun y =>
    let st := y.route
    let st := { st with first := if j.rank = 0 then st.first + 1 else st.first,
                        second := if j.rank = 0 then st.second else st.second + 1, sent := tput 0 d (cnt + 1) st.sent }
    ({ y with route := st } : Ctx).setJob
      ({ j with tok := j.tok + 1, rank := 0, granted := j.granted + 1 } : RouteJob).settle
  s.sendEntry k j e

/-- The answer to a job's reservation, from this module or from another's message. -/
def State.routeAnswer (s : State) (k : CtxKey) (j : RouteJob) : Option (Option Nat × State) :=
  match j.phase with
  | .answered g => some (g, s)
  | .away =>
    s.inbox.findSome? fun m => match m with
      | .answer k' num g => if k' = k ∧ num = j.num then some (g, { s with inbox := s.inbox.erase m }) else none
      | _ => none
  | _ => none

/-- ROUTE_RESERVATION_ANSWER: the answer returns; a granted entry is sent, and the next reservation stands ready (R308,
R381). -/
def execRouteReservationAnswer (k : CtxKey) (s : State) : Outcome State Fault Refusal :=
  match (s.ctx k).job with
  | none => .refused .notEnabled
  | some j =>
    match s.routeAnswer k j with
    | none => .refused .notEnabled
    | some (some c, s) => .next (s.placeToken k j c)
    | some (none, s) => .next (s.mapCtx k fun y => y.setJob (j.refused (2 * j.toks.length + 2) 0))

/-- A change of the job of a context with a number, where it is still under way. -/
def State.mapJob (s : State) (k : CtxKey) (num : Nat) (f : Ctx → RouteJob → Ctx) : State :=
  match (s.ctx k).job with
  | some j => if j.num = num then s.mapCtx k fun c => f c j else s
  | none => s

/-- An entry is acknowledged; `err` that it was not written. -/
def State.ackEntry (s : State) (k : CtxKey) (num id : Nat) (err : Bool) : State :=
  s.mapJob k num fun c j =>
    { c with
      job := some { j with entries := j.entries.filter fun e => e.id != id }
      route := { c.route with err := c.route.err || err } }

/-- A reservation that its port has lost is refused, and ERR is set (R289, R308). -/
def State.loseReserve (s : State) (k : CtxKey) (num : Nat) : State :=
  s.mapJob k num fun c j =>
    { c with job := some { j with phase := if j.phase = .away then .answered none else j.phase }
             route := { c.route with err := true } }

/-- A decrement that its port has lost is not awaited, and ERR is set (R289, R309). -/
def State.loseDec (s : State) (k : CtxKey) (num d : Nat) : State :=
  s.mapJob k num fun c j =>
    { c with job := some { j with waits := j.waits.filter (· != d) }, route := { c.route with err := true } }

/-- Whether an entry can be committed: it is of module `src`, and the die of its destination's task, if it has one, is
ready (R360; DEDUCED, log 31). -/
def State.entryFrom (s : State) (src : BitVec 12) : LinkMsg → Bool
  | .entry m _ _ _ _ _ task _ => m == src && (task == 0 || s.dieUp (bits task 12 3))
  | _ => false

/-- An entry committed and acknowledged (R308, R381). -/
def State.putEntry (s : State) (m : BitVec 12) (k : CtxKey) (num id x c task : Nat) (data : List Byte) : State :=
  let (bad, s) := ({ s with inbox := s.inbox.erase (.entry m k num id x c task data) } : State).commitEntry x c data
  if m = s.ownMod then s.ackEntry k num id bad else s.sendOut m (.entryAck k num id bad)

/-- The memory agents commit the earliest entry of a module that is not held, and acknowledge it (R287, R308, R381); one for a
page in a migration window is held (R208). -/
def State.takeEntry (s : State) (src : BitVec 12) : Option State :=
  match s.inbox.find? (s.entryFrom src) with
  | some (.entry m k num id x c task data) =>
    if (s.writeFault 8 (s.entryVA x c) data.length).isSome then some (s.putEntry m k num id x c task data)
    else match s.migGate (.entry m k num id) 8 (pagesOf (s.entryVA x c) data.length) with
      | none => none
      | some (true, s) => some s
      | some (false, s) => some (s.putEntry m k num id x c task data)
  | _ => none

/-- Whether the next entry of this module that can be committed is entry `id` of a job. -/
def State.nextOwnEntry (s : State) (k : CtxKey) (num id : Nat) : Bool :=
  match s.inbox.find? (s.entryFrom s.ownMod) with
  | some (.entry _ k' num' id' _ _ _ _) => k' == k && num' == num && id' == id
  | _ => false

/-- ROUTE_ENTRY_COMMIT: the memory agents of a destination commit an entry of a context and acknowledge it, on this module
in the order of sending, or another module's acknowledgement arrives (R287, R308, R381). -/
def execRouteEntryCommit (k : CtxKey) (idx : Nat) (s : State) : Outcome State Fault Refusal :=
  match (s.ctx k).job with
  | none => .refused .notEnabled
  | some j =>
    match j.entries[idx]? with
    | none => .refused .notEnabled
    | some e =>
      if j.module e.d = s.ownMod then
        if s.nextOwnEntry k j.num e.id then
          (match s.takeEntry s.ownMod with
           | some t => .next t
           | none => .refused .notEnabled)
        else .refused .notEnabled
      else
        match s.inbox.find? (fun m => match m with
          | .entryAck k' num id _ => k' == k && num == j.num && id == e.id
          | _ => false) with
        | some (.entryAck k' num id err) =>
          .next (({ s with inbox := s.inbox.erase (.entryAck k' num id err) } : State).ackEntry k num id err)
        | _ => .refused .notEnabled

/-- ROUTE_DECREMENT: every entry to a destination is acknowledged and every token placed, so its task is decremented, and
the acknowledgement awaited; a destination found unreachable counts as decremented (R309, R381). -/
def execRouteDecrement (k : CtxKey) (d : BitVec 4) (s : State) : Outcome State Fault Refusal :=
  match (s.ctx k).job with
  | none => .refused .notEnabled
  | some j =>
    let i := d.toNat
    if j.phase ≠ .ended ∨ j.dests.length ≤ i ∨ j.decd.contains i ∨ j.entries.any (fun e => e.d == i) then
      .refused .notEnabled
    else
      let task := j.taskOf i
      let m := j.module i
      let put := fun (s : State) (await err : Bool) => s.mapCtx k fun c =>
        { c with job := some { j with decd := j.decd ++ [i], waits := if await then j.waits ++ [i] else j.waits }
                 route := { c.route with err := c.route.err || err } }
      if task = 0 then .next (put s false false)
      else if m = s.ownMod then
        .next ((put s true false).sendDec
          { src := 2 ^ 14 + 9, id := task, low := false, early := false, n := 1, ack := some (m, k, j.num, i) })
      else if s.reachable m then .next ((put s true false).sendOut m (.dec s.ownMod k j.num i task))
      else .next ((put s false true).event 13 m.toNat task)

/-- ROUTE_COMPLETE: every destination has been decremented and every acknowledgement awaited has arrived; the status word
is written and EVT is set, ahead of an evaluation of the context on the same clk (R99, R309, R381). -/
def execRouteComplete (k : CtxKey) (s : State) : Outcome State Fault Refusal :=
  match (s.ctx k).job with
  | none => .refused .notEnabled
  | some j =>
    let ack := fun (i : Nat) => LinkMsg.decAck k j.num i
    if j.phase ≠ .ended ∨ !(List.range j.dests.length).all (fun i => j.decd.contains i) ∨
        !j.waits.all (fun i => s.inbox.contains (ack i)) ∨ s.evaluated k then .refused .notEnabled
    else
      let s := { s with inbox := s.inbox.filter fun m => !j.waits.any fun i => m == ack i }
      .next (s.mapCtx k fun c => { c with evt := true, job := none, route := { c.route with busy := false, done := true } })

/-! ## RSTAT (R310) -/

/-- The status word of routing. -/
def RouteStat.word (r : RouteStat) : Word :=
  Machine.word (b2n r.busy + 2 * b2n r.done + 4 * b2n r.err + 65536 * ((r.first + r.second) % 2048))

/-- RSTAT (R310): the context's own state at once, a local expert's COUNT by a reply of the IOD. -/
def semRstat (rd : XReg) (se : BitVec 10) : Sem :=
  { eff := fun s =>
      let i := se.toNat
      let r := s.me.route
      if i < 0x100 then
        s.wx rd (match i with
          | 0 => r.word
          | 1 => word r.first
          | 2 => word r.second
          | 3 => word r.dropped
          | _ => word (tget 0 (i - 16) r.sent))
      else
        let x := i % 256
        let t := s.reply rd (word (s.expert x).count)
        if i < 0x200 then t else { t with experts := tput {} x { s.expert x with count := 0 } t.experts } }
/-- RSTAT. -/
def execRstat (rd : XReg) (se : BitVec 10) (s : State) : Outcome State Fault Refusal := (semRstat rd se).run s

/-! ## Messages of other modules (R287, R288) -/

/-- A message of another module arrives: what its unit does at once, or waits for in the inbox (DESIGN CHOICE, logs 1 and 15). -/
def State.arrive (s : State) (m : LinkMsg) : State :=
  match m with
  | .payload .. | .grant .. | .answer .. | .entry .. | .entryAck .. | .decAck .. => { s with inbox := s.inbox ++ [m] }
  | .member .. | .contrib .. | .collErr .. => s.ringArrive m
  | .reserve src k num x rows =>
    let (g, s) := s.reserve x rows
    s.sendOut src (.answer k num g)
  | .dec src k num d task =>
    s.sendDec { src := 2 ^ 14 + 10 + src.toNat, id := task, low := false, early := false, n := 1, ack := some (src, k, num, d) }
  | .peer src k xd q packet => { s with peers := s.peers ++ [{ key := k, xd := xd, src := src, q := q, packet := packet }] }
  | .peerAck k xd v => s.mapCtx k fun c => { c with replies := c.replies ++ [(xd, v.setWidth 64)] }

end Sys2Proof.Machine
end

