-- ==== Sys2Proof/Machine/Ports.lean ====
section
/-! DEFINITION. What the loss of a link port does to messages, collectives and routing (R289, R297, R304, R360). -/

namespace Sys2Proof.Machine

open Host (Outcome)

/-- A message handed to the links that cannot be delivered: a payload and a grant are channel errors, a reservation is
refused, an entry and a decrement of a ROUTE are given up with ERR, a peer packet is answered 3, and the collective of a
descriptor or of data ends with CODE 4 (R275, R295, R297, R304, R308, R309; DEDUCED, log 32). -/
def State.loseOut (s : State) (o : OutMsg) (code : Nat) : State :=
  let t := { s with out := s.out.erase o }
  match o.msg, o.send with
  | .payload .., some m => s.loseSend o m code
  | .grant _ sch _ _, _ => t.chError sch code
  | .reserve _ k num _ _, _ => t.loseReserve k num
  | .entry _ k num id _ _ _ _, _ => t.ackEntry k num id true
  | .dec _ k num d task, _ => (t.loseDec k num d).event 13 o.dst.toNat task
  | .peer _ k xd _ _, _ => t.mapCtx k fun c => { c with replies := c.replies ++ [(xd, 3)] }
  | m, _ => t.unsent m

/-- The collectives under way whose ring uses Bangle port p are noted to end with CODE 4, and the other members are told; the
completion of each then ends it here (R304, R360). -/
def State.cutRings (s : State) (p : Nat) : State :=
  (List.range 4).foldl (fun s r =>
    let x := s.ring r
    if x.n ≠ 1 ∧ x.sides.any (fun e => e.2 == p) ∧ (s.ringSlots r).any fun e => ((s.ctx e.1).coll e.2.1).begun then
      s.ringError (BitVec.ofNat 2 r) x.next 4
    else s) s

/-- A port leaves the state up: the messages that wait for it are lost with an error code, and the collectives whose
traffic it carried end (R289, R297, R304). -/
def State.losePort (s : State) (p st code : Nat) : State :=
  let lost := s.out.filter fun o => s.outPort o == some p
  (lost.foldl (fun s o => s.loseOut o code) (s.dropPort p st)).cutRings p

/-- PORTEN_WRITE: ports are enabled or disabled (R289, R352). -/
def execPortenWrite (val : Word) (s : State) : Outcome State Fault Refusal :=
  let new := val &&& 0xFF
  let old := s.torus.porten
  let s := { s with torus := { s.torus with porten := new } }
  .next ((List.range 8).foldl (fun s p =>
    match old.getLsbD p, new.getLsbD p with
    | false, true => s.train p
    | true, false => s.losePort p 0 1
    | _, _ => s) s)

/-- PORT_FAILURE: a port that was up fails to retrain (R289). -/
def execPortFailure (port : BitVec 3) (s : State) : Outcome State Fault Refusal :=
  if s.torus.port port.toNat = 2 then .next (s.losePort port.toNat 3 1) else .refused .notEnabled

/-- A reset of a link port, which retrains it where it is enabled; what is in flight on it is lost (R289, R360; DEDUCED,
log 32). -/
def State.resetPort (s : State) (p : Nat) : State :=
  if s.torus.porten.getLsbD p then (s.losePort p 1 3).train p else s

end Sys2Proof.Machine
end

