-- ==== Sys2Proof/Machine/Launch.lean ====
section
/-! DEFINITION. Launch queues and QPUSH (R273 to R275, R353). -/

namespace Sys2Proof.Machine

open Host (Outcome)

/-- Packets in a queue. -/
def LaunchQ.count (x : LaunchQ) : Nat := (x.wp - x.rp).toNat

/-- A queue whose pointers lie further apart than SIZE enters OVERRUN from any other state, with its event (R273). -/
def State.checkOverrun (s : State) (q : Nat) : State :=
  let x := s.queue q
  if x.st ≠ 2 ∧ x.size < x.count then
    (s.setQueue q { x.unread with st := 2, rp := x.wp }).event 4 q 0
  else s

/-- HOST_WP_WRITE: the host advances the write pointer of a host queue (R273). -/
def execHostWpWrite (q : BitVec 6) (wp : BitVec 32) (s : State) : Outcome State Fault Refusal :=
  let x := s.queue q.toNat
  .next ((s.setQueue q.toNat { x with wp := wp }).checkOverrun q.toNat)

/-- QCTL.GO (R353). -/
def execQctlGo (q : BitVec 7) (s : State) : Outcome State Fault Refusal :=
  let x := s.queue q.toNat
  if x.st = 3 then .next ((s.setQueue q.toNat { x with st := 0 }).checkOverrun q.toNat) else .next s

/-- QCTL.RESET (R353). -/
def execQctlReset (q : BitVec 7) (s : State) : Outcome State Fault Refusal :=
  let x := s.queue q.toNat
  .next (s.setQueue q.toNat { x.unread with st := 3, rp := 0, wp := 0, errc := 0 })

/-- QCTL.HALT (R353): a packet acts in one step of the model, so none is in progress; WHY goes on showing what the head
packet needs and is not set (R273; DEDUCED, log 35). -/
def execQctlHalt (q : BitVec 7) (s : State) : Outcome State Fault Refusal :=
  let x := s.queue q.toNat
  if x.st = 0 ∨ x.st = 1 then .next (s.setQueue q.toNat { x with st := 3 }) else .next s

/-! ## Packets (R274) -/

/-- The head packet of a queue in RUN or HELD; none of its bytes where they cannot be read. -/
def State.headPacket (s : State) (q : Nat) : Option (Option (List Byte)) :=
  let x := s.queue q
  if (x.st = 0 ∨ x.st = 1) ∧ x.wp ≠ x.rp ∧ s.powered then
    match s.readVA 8 none (x.base + 64 * (x.rp.toNat % x.size)) 64 with
    | .ok (l, _) => some (some l)
    | .error _ => some none
  else none

/-- Whether a packet holds no reserved value (R274). -/
def packetOk (l : List Byte) : Bool :=
  let a0 := dfield l 8 8
  let a1 := dfield l 16 8
  decide (dfield l 1 3 = 0) && decide (dfield l 24 40 = 0) &&
    (match dfield l 0 1 with
     | 0 => true
     | 1 => decide (a0 % 64 = 0) && decide (a1 < 8)
     | 2 => decide (bits a1 16 16 = 0) && decide (a1 < 2 ^ 33)
     | 3 => decide (bits a1 3 1 = 0) && decide (bits a1 4 3 < 5) && decide (a1 < 2 ^ 7)
     | 4 => true
     | _ => false)

/-- The head packet is taken; `bad` that it is discarded and counted in ERRC (R274). -/
def State.takePacket (s : State) (q : Nat) (bad : Bool) : State :=
  let x := s.queue q
  s.setQueue q { x.unread with rp := x.rp + 1, st := 0, errc := if bad then min (x.errc + 1) 0xFFFF else x.errc }

/-- A step of a queue on a head packet of kind `kind`: held while FUNCREADY lacks a bit it needs, discarded where it is
malformed, and otherwise acted on (R274). `act` answers the state after it, or none where it waits. -/
def launchStep (q : BitVec 7) (kind : Nat) (act : List Byte → State → Option (Bool × State)) (s : State) :
    Outcome State Fault Refusal :=
  let i := q.toNat
  match s.headPacket i with
  | none => .refused .notEnabled
  | some none => .next (s.takePacket i true)
  | some (some l) =>
    let s := s.cacheN 8 ((s.queue i).base + 64 * ((s.queue i).rp.toNat % (s.queue i).size)) 64
    let why : BitVec 32 := BitVec.ofNat 32 (dfield l 4 4) &&& ~~~(s.funcready.setWidth 32)
    if why ≠ 0 then .next (s.setQueue i { s.queue i with st := 1, need := BitVec.ofNat 32 (dfield l 4 4), why := why })
    else if !packetOk l then .next (s.takePacket i true)
    else if dfield l 0 1 ≠ kind then .refused .notEnabled
    else match act l s with
      | some (bad, s) => .next (s.takePacket i bad)
      | none => .next s

/-- LAUNCH_NOP. -/
def execLaunchNop (q : BitVec 7) (s : State) : Outcome State Fault Refusal :=
  launchStep q 0 (fun _ s => some (false, s)) s

/-- LAUNCH_ARM: reads its record and arms it; a full table keeps it at the head (R274). -/
def execLaunchArm (q : BitVec 7) (s : State) : Outcome State Fault Refusal :=
  launchStep q 1 (fun l s =>
    let d := dfield l 16 8
    match s.readVA 8 none (dfield l 8 8) 64 with
    | .error _ => some (true, s)
    | .ok (r, _) =>
      let s := s.cacheN 8 (dfield l 8 8) 64
      if !recordOk r then some (true, s)
      else if !s.dieUp d then none
      else (s.arm d r none).map fun x => (false, x.2)) s

/-- LAUNCH_TDEC (R259, R274). -/
def execLaunchTdec (q : BitVec 7) (s : State) : Outcome State Fault Refusal :=
  launchStep q 2 (fun l s =>
    let a1 := dfield l 16 8
    some (false, s.sendDec { src := 2 ^ 15 + q.toNat, id := dfield l 8 4, low := false, early := decide (bits a1 32 1 = 1),
                             n := bits a1 0 16 })) s

/-- LAUNCH_POST (R274, R284). -/
def execLaunchPost (q : BitVec 7) (s : State) : Outcome State Fault Refusal :=
  launchStep q 3 (fun l s =>
    let a1 := dfield l 16 8
    let r := s.claspPost (bits a1 0 3) (bits a1 4 3) (dfield l 8 4)
    some (decide (r.1 = 2), r.2)) s

/-- LAUNCH_ABORT (R270, R274). -/
def execLaunchAbort (q : BitVec 7) (s : State) : Outcome State Fault Refusal :=
  launchStep q 4 (fun l s => some (false, s.abortId (dfield l 8 4))) s

/-! ## QPUSH (R275) -/

/-- QPUSH: sends a packet to a peer queue (R275; DEDUCED, log 35). -/
def semQpush (rd xq xa : XReg) : Sem :=
  ({ fault := fun s => s.blockFault (s.rx xa)
     eff := fun s =>
       let k := s.iss.key
       let x := (s.rx xq).toNat
       let dst : BitVec 12 := BitVec.ofNat 12 (bits x 0 12)
       let q : BitVec 6 := BitVec.ofNat 6 (bits x 12 6)
       let l := s.block64At s.myCore (s.rx xa)
       let s := s.awaitX rd
       if dst = s.ownMod then
         { s with peers := s.peers ++ [{ key := k, xd := rd, src := s.ownMod, q := q, packet := l }] }
       else if s.reachable dst then s.sendOut dst (.peer s.ownMod k rd q l)
       else s.mapMe fun c => { c with replies := c.replies ++ [(rd, 3)] } } : Sem).onRow
/-- QPUSH. -/
def execQpush (rd xq xa : XReg) (s : State) : Outcome State Fault Refusal := (semQpush rd xq xa).run s

/-- Whether an entry of the access-control table covers a packet (R275). -/
def aclCovers (e : Word) (src : BitVec 12) (q : BitVec 6) (kind : Nat) : Bool :=
  let v := e.toNat
  e.getLsbD 63 && decide (bits v 0 12 ≤ src.toNat) && decide (src.toNat ≤ bits v 12 12) &&
    (e.getLsbD 30 || decide (bits v 24 6 = q.toNat)) && decide (kind < 5) && e.getLsbD (31 + kind)

/-- PEER_PACKET_ARRIVAL: a packet is checked, written to its queue's ring and acknowledged; those of one module stay
in order (R275, R287), and one for a page in a migration window is held (R208). One whose write faults (R201) is not written:
WP stays, it counts as refused in ERRC and in its answer, and the fault is an event (DESIGN CHOICE, log 35). -/
def execPeerPacketArrival (idx : Nat) (s : State) : Outcome State Fault Refusal :=
  match s.peers[idx]? with
  | none => .refused .notEnabled
  | some p =>
    if (s.peers.take idx).any (fun y => y.src == p.src) then .refused .notEnabled
    else
      let took := fun (s : State) => { s with peers := s.peers.eraseIdx idx }
      let i := 64 + p.q.toNat
      let x := s.queue i
      let ok := (List.range 256).any fun n => aclCovers (tget 0 n s.acl) p.src p.q (dfield p.packet 0 1)
      let answer := fun (s : State) (v : BitVec 2) =>
        if p.src = s.ownMod then s.mapCtx p.key fun c => { c with replies := c.replies ++ [(p.xd, v.setWidth 64)] }
        else s.sendOut p.src (.peerAck p.key p.xd v)
      if !ok then .next (answer ((took s).setQueue i { x with errc := min (x.errc + 1) 0xFFFF }) 1)
      else if x.st ≠ 0 ∧ x.st ≠ 1 then .next (answer (took s) 2)
      else match s.writeFault 8 x.slotVA 64 with
      | some f => .next (answer (((took s).setQueue i { x with errc := min (x.errc + 1) 0xFFFF }).event 16 i (f.2 % 2 ^ 32)) 1)
      | none => match s.migGate (.peer p.src) 8 [x.slotVA / 2 ^ 21] with
        | none => .refused .notEnabled
        | some (true, s) => .next s
        | some (false, s) =>
          .next (answer ((((took s).commitBytes 8 x.slotVA p.packet).setQueue i { x with wp := x.wp + 1 }).checkOverrun i) 0)

end Sys2Proof.Machine
end

