-- ==== Sys2Proof/Machine/Search.lean ====
section
/-! DEFINITION. Graphs and search queries (R311 to R335). -/

namespace Sys2Proof.Machine

open Host (Outcome)

/-! ## Descriptors (R313, R314) -/

/-- The element types of a graph. -/
def graphType (code : Nat) : Option ETy :=
  match code with
  | 0 => some .f32
  | 1 => some .bf16
  | 3 => some .e4m3
  | 8 => some .i8
  | _ => none

/-- Bytes of an element (R323). -/
def graphBytes (t : ETy) : Nat := match t with | .f32 => 4 | .bf16 => 2 | _ => 1

/-- NOFF (R313). -/
def noff (dim : Nat) (t : ETy) : Nat := 16 * ceilDiv (dim * graphBytes t) 16

/-- A stack's region list in a descriptor: RLIST and NREG. -/
def rlist (r : Row) (s : Nat) : Nat × Nat := (bits r.toNat (8 * (64 + 16 * s)) 64, bits r.toNat (8 * (72 + 16 * s)) 32)

/-- Whether a descriptor keeps the limits of R314. -/
def graphOk (r : Row) : Bool :=
  let v := r.toNat
  let dim := bits v 0 16
  let maxdeg := bits v 32 16
  let stride := bits v 64 32
  match graphType (bits v 16 8) with
  | none => false
  | some t =>
    decide (1 ≤ dim ∧ dim ≤ 4096) && decide (bits v 24 8 < 3) && decide (1 ≤ maxdeg ∧ maxdeg ≤ 128) &&
      decide (bits v 48 16 = 0) && decide (stride % 64 = 0) &&
      decide (64 * ceilDiv (noff dim t + 16 + 4 * maxdeg) 64 ≤ stride) && decide (stride ≤ 2 ^ 21) &&
      decide (bits v 96 416 = 0) && decide (bits v 1536 512 = 0) &&
      (List.range 8).all fun s =>
        decide ((rlist r s).1 % 16 = 0) && decide ((rlist r s).2 ≤ 4096) &&
          decide ((rlist r s).1 = 0 ↔ (rlist r s).2 = 0) && decide (bits v (8 * (76 + 16 * s)) 32 = 0)

/-! ## Installing (R315, R317) -/

/-- SGINST: checks a graph descriptor and sends it to the units (R317). -/
def semSginst (rd base : XReg) (off : BitVec 32) : Sem :=
  ({ fault := fun s =>
       let ea := s.ea base off
       (s.rowFault ea 0 256).or (if graphOk (s.row s.myCore (ea.toNat / 256)) then none else some { code := 10 })
     eff := fun s =>
       let q : GraphReq :=
         { id := s.starts, key := s.iss.key, xd := rd, row := s.row s.myCore ((s.ea base off).toNat / 256), held := false }
       ({ s with installs := s.installs ++ [q], starts := s.starts + 1 } : State).awaitX rd } : Sem).onRow
/-- SGINST. -/
def execSginst (rd base : XReg) (off : BitVec 32) (s : State) : Outcome State Fault Refusal := (semSginst rd base off).run s

/-- One region checked, `first` records standing before it (R315, R317): the region, or the address of the fault. -/
def State.region (s : State) (stack stride first : Nat) (l : List Byte) : Except Nat Region :=
  let base := dfield l 0 8
  let nrec := dfield l 8 4
  let ok := decide (dfield l 12 4 = 0) && decide (base % 256 = 0) && decide (base < 2 ^ 56) && decide (1 ≤ nrec) &&
    decide (base / 2 ^ 21 = (base + stride * nrec - 1) / 2 ^ 21) && decide (first + nrec ≤ 2 ^ 29)
  match s.pte stack base with
  | some e =>
    if ok && pteS e && pteP e && !pteLp e && pteStack e == stack then
      .ok { first := first, nrec := nrec, key := pteByte e base, va := base }
    else .error base
  | none => .error base

/-- The regions of a stack from region r on, or r and the address of the fault. -/
def State.regions (s : State) (stack stride : Nat) : Nat → Nat → List (List Byte) → Except (Nat × Nat) (List Region)
  | _, _, [] => .ok []
  | r, first, l :: t =>
    match s.region stack stride first l with
    | .error a => .error (r, a)
    | .ok g =>
      match s.regions stack stride (r + 1) (first + g.nrec) t with
      | .error e => .error e
      | .ok gs => .ok (g :: gs)

/-- The regions of a stack's list: `some []` where the stack holds no nodes (R317). -/
def State.stackRegions (s : State) (row : Row) (stack : Nat) : Except (Nat × Nat) (List Region) :=
  let (a, n) := rlist row stack
  if a = 0 then .ok []
  else match s.readVA stack none a (16 * n) with
    | .error _ => .error (0, a)
    | .ok (l, _) =>
      s.regions stack (bits row.toNat 64 32) 0 0 ((List.range n).map fun i => (l.drop (16 * i)).take 16)

/-- The stacks of a graph from stack n on, or the fault: stack, region and address. -/
def State.graphStacks (s : State) (row : Row) : List Nat → Except (Nat × Nat × Nat) (List (Nat × List Region))
  | [] => .ok []
  | n :: t =>
    match s.stackRegions row n with
    | .error (r, a) => .error (n, r, a)
    | .ok gs =>
      match s.graphStacks row t with
      | .error e => .error e
      | .ok rest => .ok (if gs.isEmpty then rest else (n, gs) :: rest)

/-- The entry of a descriptor whose regions have passed. -/
def graphOf (row : Row) (parts : List (Nat × List Region)) : Graph :=
  let v := row.toNat
  { dim := bits v 0 16, ty := (graphType (bits v 16 8)).getD .f32, metric := bits v 24 8, maxdeg := bits v 32 16,
    stride := bits v 64 32, parts := parts, rm := none }

/-- A reply to a register of a context. -/
def State.replyTo (s : State) (k : CtxKey) (rd : XReg) (v : Word) : State :=
  s.mapCtx k fun c => { c with replies := c.replies ++ [(rd, v)] }

/-- An SGINST put back into the list of those in progress. -/
def State.putInstall (s : State) (q : GraphReq) : State :=
  { s with installs := s.installs.map fun x => if x.id = q.id then q else x }

/-- GRAPH_INSTALL: the units check every region and install the graph in the lowest free entry, or raise the
search-layout fault and hold the request (R317). -/
def execGraphInstall (k : CtxKey) (s : State) : Outcome State Fault Refusal :=
  match s.installs.find? (fun q => q.key == k && !q.held) with
  | none => .refused .notEnabled
  | some q =>
    match s.graphStacks q.row (List.range 8) with
    | .error (n, r, a) =>
      .next ((s.putInstall { q with held := true }).post k
        { code := 16, eaddr := word a, einfo := engInfo 11 0 (r + 4096 * n) } 11 (some (.sginst q.id)))
    | .ok parts =>
      let s := { s with installs := s.installs.erase q }
      match (List.range 64).find? (fun g => (tget none g s.graphs).isNone) with
      | none => .next (s.replyTo k q.xd (word (2 ^ 64 - 2)))
      | some g =>
        .next (({ s with graphs := tput none g (some (graphOf q.row parts)) s.graphs } : State).replyTo k q.xd (word g))

/-- A held SGINST checked again, or its reply 2^64 - 1 (R317). -/
def State.againSginst (s : State) (k : CtxKey) (id : Nat) (again : Bool) : State :=
  match s.installs.find? (fun q => q.id == id && q.held) with
  | none => s
  | some q =>
    if again then s.putInstall { q with held := false }
    else ({ s with installs := s.installs.erase q } : State).replyTo k q.xd (word (2 ^ 64 - 1))

/-! ## Removing (R319) -/

/-- SGINST.rm: requests the removal of an entry (R319). -/
def semSginstRm (rd xs : XReg) : Sem :=
  { fault := fun s => if (s.rx xs).toNat < 64 then none else some { code := 10 }
    eff := fun s =>
      let q : GraphRm := { key := s.iss.key, xd := rd, g := (s.rx xs).toNat }
      ({ s with removals := s.removals ++ [q] } : State).awaitX rd }
/-- SGINST.rm. -/
def execSginstRm (rd xs : XReg) (s : State) : Outcome State Fault Refusal := (semSginstRm rd xs).run s

/-- GRAPH_REMOVE_RECEIPT: the units receive a removal (R319). -/
def execGraphRemoveReceipt (k : CtxKey) (s : State) : Outcome State Fault Refusal :=
  match s.removals.find? (fun q => q.key == k) with
  | none => .refused .notEnabled
  | some q =>
    let s := { s with removals := s.removals.erase q }
    match tget none q.g s.graphs with
    | some g =>
      if g.rm.isSome then .next (s.replyTo k q.xd 1)
      else .next { s with graphs := tput none q.g (some { g with rm := some (k, q.xd) }) s.graphs }
    | none => .next (s.replyTo k q.xd 1)

/-- GRAPH_ENTRY_FREED: the last query on a removed graph has completed, and the removal replies 0 (R319). -/
def execGraphEntryFreed (g : BitVec 6) (s : State) : Outcome State Fault Refusal :=
  match tget none g.toNat s.graphs with
  | some { rm := some (k, rd), .. } =>
    if s.searches.any (fun q => q.graph == some g.toNat && q.res.isNone) then .refused .notEnabled
    else .next (({ s with graphs := tput none g.toNat none s.graphs } : State).replyTo k rd 0)
  | _ => .refused .notEnabled

/-! ## Submission (R320, R321) -/

/-- Whether a query header keeps its limits (R320, R321). -/
def packetHeaderOk (r : Row) : Bool :=
  let v := r.toNat
  let nep := bits v 16 8
  decide (bits v 6 2 = 0) && decide (bits v 12 4 = 0) && decide (1 ≤ nep ∧ nep ≤ 4) &&
    decide (1 ≤ bits v 24 8 ∧ bits v 24 8 ≤ 16) && decide (1 ≤ bits v 32 16 ∧ bits v 32 16 ≤ 512) &&
    decide (1 ≤ bits v 48 16 ∧ bits v 48 16 ≤ bits v 32 16) &&
    decide (nep ≤ bits v 64 32 ∧ bits v 64 32 ≤ 16384) && decide (1 ≤ bits v 96 32) && decide (bits v 192 64 = 0) &&
    decide (bits v (8 * (32 + 4 * nep)) (8 * (224 - 4 * nep)) = 0)

/-- Rows of a result of K pairs (R320). -/
def resultRows (k : Nat) : Nat := ceilDiv (32 + 8 * k) 256

/-- The query of a header, submitted by a context. -/
def queryOf (id : Nat) (key : CtxKey) (r : Row) (graph : Option Nat) : Query :=
  let v := r.toNat
  { id := id, key := key, qh := bits v 8 4, home := coreDie (keyCore key), graph := graph, w := bits v 24 8, l := bits v 32 16,
    k := bits v 48 16, v := bits v 64 32, maxr := bits v 96 32, seq := bits v 128 32, rrow := bits v 160 16,
    qrow := bits v 176 16, eps := (List.range (bits v 16 8)).map fun j => bits v (256 + 32 * j) 32, running := false,
    cancel := false, held := false, mute := false, vec := [], heap := [], vis := [], rounds := 0, dc := 0, flags := 0,
    res := none }

/-- The checks of SQSUB (R320, R321). -/
def State.sqsubFault (s : State) (ea : Word) : Option TrapInfo :=
  let r := s.row s.myCore (ea.toNat / 256)
  (s.rowFault ea 0 256).or (if !packetHeaderOk r then some { code := 10 }
    else s.rowsFault s.myCore (bits r.toNat 160 16) (resultRows (bits r.toNat 48 16)))

/-- SQSUB: submits a query on a FREE handle (R321; DEDUCED, log 38). -/
def semSqsub (rd base : XReg) (off : BitVec 32) : Sem :=
  ({ fault := fun s => s.sqsubFault (s.ea base off)
     eff := fun s =>
       let k := s.iss.key
       let r := s.row s.myCore ((s.ea base off).toNat / 256)
       let h := bits r.toNat 8 4
       let g := bits r.toNat 0 6
       if tget 0 h s.me.qh ≠ 0 then s.wx rd 1
       else
         let installed := match tget none g s.graphs with | some x => x.rm.isNone | none => false
         let q := queryOf s.starts k r (if installed then some g else none)
         let s := (s.wx rd 0).mapMe fun c => { c with qh := tput 0 h 1 c.qh }
         { s with searches := s.searches ++ [q], starts := s.starts + 1 } } : Sem).onRow
/-- SQSUB. -/
def execSqsub (rd base : XReg) (off : BitVec 32) (s : State) : Outcome State Fault Refusal := (semSqsub rd base off).run s

/-! ## Distances (R324, R325) -/

/-- An element widened exactly to FP32. -/
def widen (t : ETy) (v : Nat) : Nat :=
  match t with
  | .f32 => v
  | .i8 => (fmt32.rne (fvOfInt (toI 8 v) 0)).1
  | _ => (fmt32.rne (t.fmt.decode v)).1

/-- The elements of bytes. -/
def widenBytes (t : ETy) (dim : Nat) (l : List Byte) : List Nat :=
  (List.range dim).map fun i => widen t (dfield l (i * graphBytes t) (graphBytes t))

/-- A term of a distance. -/
def distTerm (metric q x : Nat) : Nat :=
  if metric = 0 then
    let d := (fmt32.sub q x).1
    (fmt32.mul d d).1
  else (fmt32.mul q x).1

/-- Lane pairs added until one is left. -/
def lanePairs : Nat → List Nat → Nat
  | 0, l => l.headD 0
  | n + 1, l => lanePairs n ((List.range (l.length / 2)).map fun j => (fmt32.add (l.getD (2 * j) 0) (l.getD (2 * j + 1) 0)).1)

/-- DIST(q, x) (R324). -/
def dist (metric dim : Nat) (q x : List Nat) : Nat :=
  let acc := (List.range 32).map fun l =>
    (List.range (ceilDiv dim 32)).foldl (fun a b =>
      let i := 32 * b + l
      if i < dim then (fmt32.add a (distTerm metric (q.getD i 0) (x.getD i 0))).1 else a) 0
  let a := lanePairs 5 acc
  let d := match metric with
    | 0 => a
    | 1 => if fmt32.decode a = .nan then a else Nat.xor a (2 ^ 31)
    | _ => (fmt32.sub one32 a).1
  if d = 2 ^ 31 then 0 else d

/-- Whether a distance is a NaN. -/
def distNan (d : Nat) : Bool := decide (fmt32.decode d = .nan)

/-- A distance as an integer in the order of R325. -/
def distKey (d : Nat) : Int := if distNan d then 2 ^ 31 else if d < 2 ^ 31 then d else -((d - 2 ^ 31 : Nat) : Int)

/-- Whether one candidate's key precedes another's. -/
def Cand.before (a b : Cand) : Bool :=
  decide (distKey a.d < distKey b.d) || (decide (distKey a.d = distKey b.d) && decide (a.node < b.node))

/-- A candidate put in its place in ascending key. -/
def insertCand (c : Cand) : List Cand → List Cand
  | [] => [c]
  | x :: r => if c.before x then c :: x :: r else x :: insertCand c r

/-! ## Records (R313, R318) -/

/-- The region and place of a node id; none where it names no node (R315). -/
def Graph.findRegion (g : Graph) (n : Nat) : Option (Region × Nat) :=
  let i := n % 2 ^ 29
  match g.parts.find? (fun e => e.1 == n / 2 ^ 29) with
  | none => none
  | some (_, rs) =>
    (rs.find? fun r => decide (r.first ≤ i) && decide (i < r.first + r.nrec)).map fun r => (r, g.stride * (i - r.first))

/-- n bytes by physical key: bytes and NOTLIVE, or the offset of the block that cannot be read. -/
def State.readKey (s : State) (key n : Nat) : Except Nat (List Byte × Bool) :=
  (blockPieces key n).foldl (fun acc p =>
    match acc with
    | .error e => .error e
    | .ok (bs, nl) =>
      match s.readBlk (p.1 / 256) with
      | none => .error (p.1 - key)
      | some (r, d) => .ok (bs ++ rowBytes r (p.1 % 256) p.2, nl || d)) (.ok ([], false))

/-- A node's record as read: its vector, its neighbours and the flags of the status word; or the virtual address of the
block in error (DEDUCED, log 38). -/
def State.readNode (s : State) (g : Graph) (r : Region) (off : Nat) : Except Nat (List Nat × List Nat × Nat) :=
  let o := noff g.dim g.ty
  match s.readKey (r.key + off) (o + 16 + 4 * g.maxdeg) with
  | .error e => .error ((r.va + off + e) / 256 * 256)
  | .ok (l, dead) =>
    let deg := dfield l o 4
    let nbrs := (List.range (min deg g.maxdeg)).map fun i => dfield l (o + 16 + 4 * i) 4
    .ok (widenBytes g.ty g.dim l, nbrs, (if g.maxdeg < deg then 32 else 0) + (if dead then 128 else 0))

/-! ## The reference search (R326) -/

/-- How a VISIT, or a list of them, ends. -/
inductive VisitEnd where
  | ok | full | notReady
  /-- An uncorrectable error in the block at a virtual address. -/
  | bad (va : Nat)
  deriving DecidableEq, Repr

/-- VISIT(n) (R326). -/
def State.visit (s : State) (g : Graph) (q : Query) (n : Nat) : VisitEnd × Query :=
  match g.findRegion n with
  | none => (.ok, { q with flags := Nat.lor q.flags 16 })
  | some (r, off) =>
    if q.vis.any (fun e => e.1 == n) then (.ok, q)
    else if q.vis.length = q.v then (.full, q)
    else if !s.funcready.getLsbD (16 + n / 2 ^ 29) then (.notReady, q)
    else match s.readNode g r off with
      | .error va => (.bad va, q)
      | .ok (x, nbrs, fl) =>
        let d := dist g.metric g.dim q.vec x
        let q := { q with vis := q.vis ++ [(n, nbrs)], dc := q.dc + 1,
                          flags := Nat.lor (Nat.lor q.flags fl) (if distNan d then 64 else 0) }
        let c : Cand := { d := d, node := n, expanded := false }
        if q.heap.length < q.l then (.ok, { q with heap := insertCand c q.heap })
        else match q.heap.getLast? with
          | some z => if c.before z then (.ok, { q with heap := insertCand c q.heap.dropLast }) else (.ok, q)
          | none => (.ok, q)

/-- VISITs in order, up to the first that does not end ok. -/
def State.visitAll (s : State) (g : Graph) (q : Query) : List Nat → VisitEnd × Query
  | [] => (.ok, q)
  | n :: r =>
    match s.visit g q n with
    | (.ok, q) => s.visitAll g q r
    | e => e

/-- A result record (R330): with NOGRAPH, BADPKT or FAULT the counts and KOUT are zero, and the status keeps its bits
(R331). -/
def resultBytes (q : Query) (code : Nat) (pairs : List Cand) (vc : Nat) : List Byte :=
  let zero := decide (code = 4) || decide (code = 5) || decide (code = 6)
  let pairs := if zero then [] else pairs
  let num := fun (n : Nat) => toBytes 4 (if zero then 0 else n)
  let body := (List.range q.k).flatMap fun i =>
    match pairs[i]? with
    | some c => toBytes 4 c.node ++ toBytes 4 c.d
    | none => toBytes 4 0xFFFFFFFF ++ toBytes 4 0x7FC00000
  let l := toBytes 4 (code + q.flags) ++ num q.rounds ++ num q.dc ++ num vc ++
    toBytes 2 pairs.length ++ toBytes 2 0 ++ toBytes 4 q.seq ++ toBytes 8 0 ++ body
  l ++ List.replicate (256 * resultRows q.k - l.length) 0

/-- The search of a query ends with a code. -/
def Query.finish (q : Query) (code : Nat) : Query :=
  { q with
    res := some (resultBytes q code (q.heap.take q.k) q.vis.length), running := false, vec := [], heap := [], vis := [] }

/-- A query put back into the list of searches. -/
def State.putQuery (s : State) (q : Query) : State :=
  { s with searches := s.searches.map fun x => if x.id = q.id then q else x }

/-- A query held after an uncorrectable error, SRCE 10 (R328); one of before a reset of its die, which no context takes a
fault for, completes with FAULT (R360; DEDUCED, log 31). -/
def State.holdQuery (s : State) (q : Query) (va : Nat) : State :=
  if q.mute then s.putQuery (q.finish 6)
  else (s.putQuery { q with held := true }).post q.key { code := 14, eaddr := word va, einfo := engInfo 10 q.qh 0 } 10
    (some (.query (BitVec.ofNat 4 q.qh)))

/-- What follows VISITs of a query: it goes on, ends or is held. -/
def State.afterVisits (s : State) (q0 : Query) : VisitEnd × Query → State
  | (.ok, q) => s.putQuery q
  | (.full, q) => s.putQuery (q.finish 2)
  | (.notReady, q) => s.putQuery (q.finish 6)
  | (.bad va, _) => s.holdQuery q0 va

/-- The footprint of a query in its home pool (R322). -/
def Query.footprint (q : Query) (g : Graph) : Nat :=
  256 * ceilDiv (8 * q.v + 16 * q.l + g.dim * graphBytes g.ty + 1024) 256

/-- A search begins: the vector is read and the entry points are visited (R321, R326). -/
def State.beginSearch (s : State) (q : Query) (g : Graph) : State :=
  let n := keyCore q.key
  let cnt := ceilDiv (g.dim * graphBytes g.ty) 256
  if !s.funcready.getLsbD (16 + q.home) then s.putQuery (q.finish 6)
  else if s.extent n < (q.qrow + cnt) * 256 then s.putQuery (q.finish 5)
  else match s.rowsData n q.qrow cnt with
    | none => s.holdQuery { q with running := true } (256 * q.qrow)
    | some l =>
      let q := { q with running := true, held := false, vec := widenBytes g.ty g.dim l, heap := [], vis := [], rounds := 0,
                        dc := 0, flags := 0 }
      s.afterVisits q (s.visitAll g q q.eps)

/-- The graph of a query. -/
def State.queryGraph (s : State) (q : Query) : Option Graph :=
  match q.graph with
  | some i => tget none i s.graphs
  | none => none

/-- The bytes of a home pool in use. -/
def State.poolUsed (s : State) (home : Nat) : Nat :=
  s.searches.foldl (fun a q =>
    if q.home = home ∧ q.running then a + (match s.queryGraph q with | some g => q.footprint g | none => 0) else a) 0

/-- QUERY_ADMIT: the home unit admits its next query in arrival order when its pool has room (R322). -/
def execQueryAdmit (stack : BitVec 3) (s : State) : Outcome State Fault Refusal :=
  match s.searches.find? (fun q => q.home == stack.toNat && !q.running && q.res.isNone) with
  | none => .refused .notEnabled
  | some q =>
    match s.queryGraph q with
    | none => .next (s.putQuery (q.finish (if s.funcready.getLsbD (16 + q.home) then 4 else 6)))
    | some g =>
      if !s.funcready.getLsbD (16 + q.home) then .next (s.putQuery (q.finish 6))
      else if 14 * 2 ^ 20 < s.poolUsed q.home + q.footprint g then .refused .notEnabled else .next (s.beginSearch q g)

/-- The candidates that a round expands (R326). -/
def Query.toExpand (q : Query) : List Cand := (q.heap.filter fun c => !c.expanded).take q.w

/-- QUERY_ROUND: a query performs one round, or ends (R326); with FAULT where its home unit is not ready (R311). -/
def execQueryRound (k : CtxKey) (qh : BitVec 4) (s : State) : Outcome State Fault Refusal :=
  match s.searches.find? (fun q => q.key == k && q.qh == qh.toNat && q.running && !q.held) with
  | none => .refused .notEnabled
  | some q =>
    match s.queryGraph q with
    | none => .refused .notEnabled
    | some g =>
      let cs := q.toExpand
      if !s.funcready.getLsbD (16 + q.home) then .next (s.putQuery (q.finish 6))
      else if q.cancel then .next (s.putQuery (q.finish 3))
      else if cs.isEmpty then .next (s.putQuery (q.finish 0))
      else if q.rounds = q.maxr then .next (s.putQuery (q.finish 1))
      else
        let ids := cs.map fun c => c.node
        let q1 := { q with
          rounds := q.rounds + 1
          heap := q.heap.map fun c => if ids.contains c.node then { c with expanded := true } else c }
        let nbrs := cs.flatMap fun c => match q.vis.find? (fun e => e.1 == c.node) with | some e => e.2 | none => []
        .next (s.afterVisits q (s.visitAll g q1 nbrs))

/-- A held query restarted from the beginning, or completed with status FAULT (R328). -/
def State.againQuery (s : State) (k : CtxKey) (qh : BitVec 4) (again : Bool) : State :=
  match s.searches.find? (fun q => q.key == k && q.qh == qh.toNat && q.held && !q.mute) with
  | none => s
  | some q =>
    let q := { q with held := false }
    if again then
      match s.queryGraph q with
      | some g => s.beginSearch q g
      | none => s.putQuery (q.finish 6)
    else s.putQuery (q.finish 6)

/-- QUERY_VISIBLE: the oldest query of a context, once ended, writes its result rows, goes DONE and sets EVT (R332), on the clk
of an evaluation of its context before that (R333); one of before a reset of its die writes nothing, and is awaited by none
(R360). -/
def execQueryVisible (k : CtxKey) (s : State) : Outcome State Fault Refusal :=
  match s.searches.find? (fun q => q.key == k && (!q.mute || q.res.isSome)) with
  | none => .refused .notEnabled
  | some q =>
    match q.res with
    | none => .refused .notEnabled
    | some l =>
      let s := { s with searches := s.searches.erase q }
      if q.mute then .next s
      else if s.evaluated k then .refused .notEnabled
      else
        let s := s.writePayload (keyCore k) q.rrow l 0
        .next (s.mapCtx k fun c =>
          { c with evt := true, qh := tput 0 q.qh 2 c.qh, qres := tput none q.qh (some (word (dfield l 0 8))) c.qres })

/-! ## SQWAIT and SQCAN (R333, R334) -/

/-- SQWAIT once it issues: x[xd] for the state of the handle, which a DONE one leaves FREE. -/
def State.takeQuery (s : State) (rd : XReg) (qh : BitVec 4) : State :=
  let i := qh.toNat
  match tget 0 i s.me.qh with
  | 0 => s.wx rd (word (2 ^ 64 - 1))
  | 1 => s.wx rd (word (2 ^ 64 - 2))
  | _ =>
    let free := fun (s : State) => s.mapMe fun c => { c with qh := tput 0 i 0 c.qh, qres := tput none i none c.qres }
    match tget none i s.me.qres with
    | some v => free (s.wx rd v)
    | none => (free (s.wx rd (Config.savedQuery s.fresh))).bump

/-- SQWAIT (R333). -/
def semSqwait (rd : XReg) (qh : BitVec 4) : Sem :=
  { block := fun s => if tget 0 qh.toNat s.me.qh = 1 then [.query qh] else []
    eff := fun s => s.takeQuery rd qh }
/-- SQWAIT. -/
def execSqwait (rd : XReg) (qh : BitVec 4) (s : State) : Outcome State Fault Refusal := (semSqwait rd qh).run s

/-- SQWAIT.t (R333). -/
def semSqwaitT (rd : XReg) (qh : BitVec 4) : Sem := { eff := fun s => s.takeQuery rd qh }
/-- SQWAIT.t. -/
def execSqwaitT (rd : XReg) (qh : BitVec 4) (s : State) : Outcome State Fault Refusal := (semSqwaitT rd qh).run s

/-- SQCAN: requests the cancellation of a query (R334). -/
def semSqcan (rd : XReg) (qh : BitVec 4) : Sem :=
  { eff := fun s =>
      let k := s.iss.key
      match tget 0 qh.toNat s.me.qh with
      | 0 => s.reply rd 2
      | 2 => s.reply rd 1
      | _ =>
        match s.searches.find? (fun q => q.key == k && q.qh == qh.toNat && !q.mute) with
        | none => s.reply rd 1
        | some q =>
          if q.res.isSome then s.reply rd 1
          else if q.running then (s.putQuery { q with cancel := true }).reply rd 0
          else (s.putQuery (q.finish 3)).reply rd 0 }
/-- SQCAN. -/
def execSqcan (rd : XReg) (qh : BitVec 4) (s : State) : Outcome State Fault Refusal := (semSqcan rd qh).run s

end Sys2Proof.Machine
end

