-- ==== Sys2Proof/Machine/Vector.lean ====
section
/-! DEFINITION. Vector arithmetic in V0 and V1: floating point, integers, compares, masks (R101 to R110), random
numbers (R128). -/

namespace Sys2Proof.Machine

open Host (Outcome)

/-! ## Elementwise operations -/

/-- v[vd] written with the enabled elements of a function, and the flags of those elements ORed (R69, R102). -/
def State.mapElems (s : State) (w : Nat) (vd : VReg) (mk : MReg) (f : Nat → Nat × Nat) : State :=
  let m := s.rm mk
  let fl := (List.range (2048 / w)).foldl (fun a i => if maskOn w m i then a ||| (f i).2 else a) 0
  (s.wv vd (maskedRow w m (s.lv vd) fun i => (f i).1)).mapMe fun c => c.setFlags fl

/-- A floating-point instruction of one source. -/
def fpSem1 (t : ETy) (vd : VReg) (a : VSrc) (mk : MReg) (f : Fmt → Nat → Nat × Nat) : Sem :=
  vecSem [a] fun s => s.mapElems t.width vd mk fun i => f t.fmt (elem t.width (s.src a) i)

/-- A floating-point instruction of two sources. -/
def fpSem2 (t : ETy) (vd : VReg) (a b : VSrc) (mk : MReg) (f : Fmt → Nat → Nat → Nat × Nat) : Sem :=
  vecSem [a, b] fun s => s.mapElems t.width vd mk fun i =>
    f t.fmt (elem t.width (s.src a) i) (elem t.width (s.src b) i)

/-- A floating-point instruction of three sources. -/
def fpSem3 (t : ETy) (vd : VReg) (a b c : VSrc) (mk : MReg) (f : Fmt → Nat → Nat → Nat → Nat × Nat) : Sem :=
  vecSem [a, b, c] fun s => s.mapElems t.width vd mk fun i =>
    f t.fmt (elem t.width (s.src a) i) (elem t.width (s.src b) i) (elem t.width (s.src c) i)

/-- An instruction on bit patterns of one source, without flags. -/
def intSem1 (t : ETy) (vd : VReg) (a : VSrc) (mk : MReg) (f : Nat → Nat → Nat) : Sem :=
  vecSem [a] fun s => s.wv vd (maskedRow t.width (s.rm mk) (s.lv vd) fun i => f t.width (elem t.width (s.src a) i))

/-- An instruction on bit patterns of two sources, without flags. -/
def intSem2 (t : ETy) (vd : VReg) (a b : VSrc) (mk : MReg) (f : Nat → Nat → Nat → Nat) : Sem :=
  vecSem [a, b] fun s => s.wv vd (maskedRow t.width (s.rm mk) (s.lv vd) fun i =>
    f t.width (elem t.width (s.src a) i) (elem t.width (s.src b) i))

/-! ## Floating-point arithmetic (R105, R106) -/

/-- VFADD: a + b (R105). -/
def semVfadd (t : ETy) (vd : VReg) (a b : VSrc) (mk : MReg) : Sem :=
  fpSem2 t vd a b mk fun f x y => f.add x y
/-- VFADD. -/
def execVfadd (t : ETy) (vd : VReg) (a b : VSrc) (mk : MReg) (s : State) : Outcome State Fault Refusal := (semVfadd t vd a b mk).run s

/-- VFSUB: a - b (R105). -/
def semVfsub (t : ETy) (vd : VReg) (a b : VSrc) (mk : MReg) : Sem :=
  fpSem2 t vd a b mk fun f x y => f.sub x y
/-- VFSUB. -/
def execVfsub (t : ETy) (vd : VReg) (a b : VSrc) (mk : MReg) (s : State) : Outcome State Fault Refusal := (semVfsub t vd a b mk).run s

/-- VFMUL: a x b (R105). -/
def semVfmul (t : ETy) (vd : VReg) (a b : VSrc) (mk : MReg) : Sem :=
  fpSem2 t vd a b mk fun f x y => f.mul x y
/-- VFMUL. -/
def execVfmul (t : ETy) (vd : VReg) (a b : VSrc) (mk : MReg) (s : State) : Outcome State Fault Refusal := (semVfmul t vd a b mk).run s

/-- VFMIN: minimumNumber(a, b) (R105). -/
def semVfmin (t : ETy) (vd : VReg) (a b : VSrc) (mk : MReg) : Sem :=
  fpSem2 t vd a b mk fun f x y => (f.min x y, 0)
/-- VFMIN. -/
def execVfmin (t : ETy) (vd : VReg) (a b : VSrc) (mk : MReg) (s : State) : Outcome State Fault Refusal := (semVfmin t vd a b mk).run s

/-- VFMAX: maximumNumber(a, b) (R105). -/
def semVfmax (t : ETy) (vd : VReg) (a b : VSrc) (mk : MReg) : Sem :=
  fpSem2 t vd a b mk fun f x y => (f.max x y, 0)
/-- VFMAX. -/
def execVfmax (t : ETy) (vd : VReg) (a b : VSrc) (mk : MReg) (s : State) : Outcome State Fault Refusal := (semVfmax t vd a b mk).run s

/-- VFDIV: a / b (R105). -/
def semVfdiv (t : ETy) (vd : VReg) (a b : VSrc) (mk : MReg) : Sem :=
  fpSem2 t vd a b mk fun f x y => f.div x y
/-- VFDIV. -/
def execVfdiv (t : ETy) (vd : VReg) (a b : VSrc) (mk : MReg) (s : State) : Outcome State Fault Refusal := (semVfdiv t vd a b mk).run s

/-- VFMA: a x b + c (R105). -/
def semVfma (t : ETy) (vd : VReg) (a b c : VSrc) (mk : MReg) : Sem :=
  fpSem3 t vd a b c mk fun f x y z => f.fma x y z
/-- VFMA. -/
def execVfma (t : ETy) (vd : VReg) (a b c : VSrc) (mk : MReg) (s : State) : Outcome State Fault Refusal := (semVfma t vd a b c mk).run s

/-- VFMS: a x b - c (R105). -/
def semVfms (t : ETy) (vd : VReg) (a b c : VSrc) (mk : MReg) : Sem :=
  fpSem3 t vd a b c mk fun f x y z => f.fms x y z
/-- VFMS. -/
def execVfms (t : ETy) (vd : VReg) (a b c : VSrc) (mk : MReg) (s : State) : Outcome State Fault Refusal := (semVfms t vd a b c mk).run s

/-- VFNMA: -(a x b) + c (R105). -/
def semVfnma (t : ETy) (vd : VReg) (a b c : VSrc) (mk : MReg) : Sem :=
  fpSem3 t vd a b c mk fun f x y z => f.fnma x y z
/-- VFNMA. -/
def execVfnma (t : ETy) (vd : VReg) (a b c : VSrc) (mk : MReg) (s : State) : Outcome State Fault Refusal := (semVfnma t vd a b c mk).run s

/-- VFSQRT: the square root (R105). -/
def semVfsqrt (t : ETy) (vd : VReg) (a : VSrc) (mk : MReg) : Sem :=
  fpSem1 t vd a mk fun f x => f.sqrt x
/-- VFSQRT. -/
def execVfsqrt (t : ETy) (vd : VReg) (a : VSrc) (mk : MReg) (s : State) : Outcome State Fault Refusal := (semVfsqrt t vd a mk).run s

/-- VFRCP: 1 / a (R105). -/
def semVfrcp (t : ETy) (vd : VReg) (a : VSrc) (mk : MReg) : Sem :=
  fpSem1 t vd a mk fun f x => f.rcp x
/-- VFRCP. -/
def execVfrcp (t : ETy) (vd : VReg) (a : VSrc) (mk : MReg) (s : State) : Outcome State Fault Refusal := (semVfrcp t vd a mk).run s

/-- VFRSQ: 1 / sqrt(a) (R105). -/
def semVfrsq (t : ETy) (vd : VReg) (a : VSrc) (mk : MReg) : Sem :=
  fpSem1 t vd a mk fun f x => f.rsq x
/-- VFRSQ. -/
def execVfrsq (t : ETy) (vd : VReg) (a : VSrc) (mk : MReg) (s : State) : Outcome State Fault Refusal := (semVfrsq t vd a mk).run s

/-- VFEXP2: 2^a (R105). -/
def semVfexp2 (t : ETy) (vd : VReg) (a : VSrc) (mk : MReg) : Sem :=
  fpSem1 t vd a mk fun f x => f.exp2 x
/-- VFEXP2. -/
def execVfexp2 (t : ETy) (vd : VReg) (a : VSrc) (mk : MReg) (s : State) : Outcome State Fault Refusal := (semVfexp2 t vd a mk).run s

/-- VFLOG2: log2 a (R105). -/
def semVflog2 (t : ETy) (vd : VReg) (a : VSrc) (mk : MReg) : Sem :=
  fpSem1 t vd a mk fun f x => f.log2 x
/-- VFLOG2. -/
def execVflog2 (t : ETy) (vd : VReg) (a : VSrc) (mk : MReg) (s : State) : Outcome State Fault Refusal := (semVflog2 t vd a mk).run s

/-- The class bit of a code (R106). -/
def Fmt.classOf (f : Fmt) (c : Nat) : Nat :=
  let neg := f.neg c
  let ex := bits c f.mbits f.ebits
  let m := bits c 0 f.mbits
  if ex = 2 ^ f.ebits - 1 then
    if m = 0 then (if neg then 0 else 7) else if bits c (f.mbits - 1) 1 = 0 then 8 else 9
  else if ex = 0 then
    if m = 0 then (if neg then 3 else 4) else (if neg then 2 else 5)
  else (if neg then 1 else 6)

/-- VFABS: the sign bit cleared (R106). -/
def semVfabs (t : ETy) (vd : VReg) (a : VSrc) (mk : MReg) : Sem :=
  intSem1 t vd a mk fun w x => x % 2 ^ (w - 1)
/-- VFABS. -/
def execVfabs (t : ETy) (vd : VReg) (a : VSrc) (mk : MReg) (s : State) : Outcome State Fault Refusal := (semVfabs t vd a mk).run s

/-- VFNEG: the sign bit inverted (R106). -/
def semVfneg (t : ETy) (vd : VReg) (a : VSrc) (mk : MReg) : Sem :=
  intSem1 t vd a mk fun w x => Nat.xor x (2 ^ (w - 1))
/-- VFNEG. -/
def execVfneg (t : ETy) (vd : VReg) (a : VSrc) (mk : MReg) (s : State) : Outcome State Fault Refusal := (semVfneg t vd a mk).run s

/-- VFCLASS: one bit for the class of the element (R106). -/
def semVfclass (t : ETy) (vd : VReg) (a : VSrc) (mk : MReg) : Sem :=
  intSem1 t vd a mk fun _ x => 2 ^ t.fmt.classOf x
/-- VFCLASS. -/
def execVfclass (t : ETy) (vd : VReg) (a : VSrc) (mk : MReg) (s : State) : Outcome State Fault Refusal := (semVfclass t vd a mk).run s

/-! ## Integer arithmetic and logic (R107) -/

/-- SAT to the signed range of width w, as a bit pattern (R8). -/
def satI (w : Nat) (v : Int) : Nat := ofI w (max (-(2 ^ (w - 1))) (min (2 ^ (w - 1) - 1) v))

/-- VADD: a + b (R107). -/
def semVadd (t : ETy) (vd : VReg) (a b : VSrc) (mk : MReg) : Sem :=
  intSem2 t vd a b mk fun _ x y => x + y
/-- VADD. -/
def execVadd (t : ETy) (vd : VReg) (a b : VSrc) (mk : MReg) (s : State) : Outcome State Fault Refusal := (semVadd t vd a b mk).run s

/-- VSUB: a - b (R107). -/
def semVsub (t : ETy) (vd : VReg) (a b : VSrc) (mk : MReg) : Sem :=
  intSem2 t vd a b mk fun w x y => ofI w (toI w x - toI w y)
/-- VSUB. -/
def execVsub (t : ETy) (vd : VReg) (a b : VSrc) (mk : MReg) (s : State) : Outcome State Fault Refusal := (semVsub t vd a b mk).run s

/-- VMUL: the low half of the product (R107). -/
def semVmul (t : ETy) (vd : VReg) (a b : VSrc) (mk : MReg) : Sem :=
  intSem2 t vd a b mk fun _ x y => x * y
/-- VMUL. -/
def execVmul (t : ETy) (vd : VReg) (a b : VSrc) (mk : MReg) (s : State) : Outcome State Fault Refusal := (semVmul t vd a b mk).run s

/-- VMULH: the high half of the signed product (R107). -/
def semVmulh (t : ETy) (vd : VReg) (a b : VSrc) (mk : MReg) : Sem :=
  intSem2 t vd a b mk fun w x y => ofI w (toI w x * toI w y / 2 ^ w)
/-- VMULH. -/
def execVmulh (t : ETy) (vd : VReg) (a b : VSrc) (mk : MReg) (s : State) : Outcome State Fault Refusal := (semVmulh t vd a b mk).run s

/-- VMIN: the signed minimum (R107). -/
def semVmin (t : ETy) (vd : VReg) (a b : VSrc) (mk : MReg) : Sem :=
  intSem2 t vd a b mk fun w x y => if toI w x ≤ toI w y then x else y
/-- VMIN. -/
def execVmin (t : ETy) (vd : VReg) (a b : VSrc) (mk : MReg) (s : State) : Outcome State Fault Refusal := (semVmin t vd a b mk).run s

/-- VMINU: the unsigned minimum (R107). -/
def semVminu (t : ETy) (vd : VReg) (a b : VSrc) (mk : MReg) : Sem :=
  intSem2 t vd a b mk fun _ x y => min x y
/-- VMINU. -/
def execVminu (t : ETy) (vd : VReg) (a b : VSrc) (mk : MReg) (s : State) : Outcome State Fault Refusal := (semVminu t vd a b mk).run s

/-- VMAX: the signed maximum (R107). -/
def semVmax (t : ETy) (vd : VReg) (a b : VSrc) (mk : MReg) : Sem :=
  intSem2 t vd a b mk fun w x y => if toI w x ≤ toI w y then y else x
/-- VMAX. -/
def execVmax (t : ETy) (vd : VReg) (a b : VSrc) (mk : MReg) (s : State) : Outcome State Fault Refusal := (semVmax t vd a b mk).run s

/-- VMAXU: the unsigned maximum (R107). -/
def semVmaxu (t : ETy) (vd : VReg) (a b : VSrc) (mk : MReg) : Sem :=
  intSem2 t vd a b mk fun _ x y => max x y
/-- VMAXU. -/
def execVmaxu (t : ETy) (vd : VReg) (a b : VSrc) (mk : MReg) (s : State) : Outcome State Fault Refusal := (semVmaxu t vd a b mk).run s

/-- VAND: a AND b (R107). -/
def semVand (t : ETy) (vd : VReg) (a b : VSrc) (mk : MReg) : Sem :=
  intSem2 t vd a b mk fun _ x y => Nat.land x y
/-- VAND. -/
def execVand (t : ETy) (vd : VReg) (a b : VSrc) (mk : MReg) (s : State) : Outcome State Fault Refusal := (semVand t vd a b mk).run s

/-- VOR: a OR b (R107). -/
def semVor (t : ETy) (vd : VReg) (a b : VSrc) (mk : MReg) : Sem :=
  intSem2 t vd a b mk fun _ x y => Nat.lor x y
/-- VOR. -/
def execVor (t : ETy) (vd : VReg) (a b : VSrc) (mk : MReg) (s : State) : Outcome State Fault Refusal := (semVor t vd a b mk).run s

/-- VXOR: a XOR b (R107). -/
def semVxor (t : ETy) (vd : VReg) (a b : VSrc) (mk : MReg) : Sem :=
  intSem2 t vd a b mk fun _ x y => Nat.xor x y
/-- VXOR. -/
def execVxor (t : ETy) (vd : VReg) (a b : VSrc) (mk : MReg) (s : State) : Outcome State Fault Refusal := (semVxor t vd a b mk).run s

/-- VANDN: a AND NOT b (R107). -/
def semVandn (t : ETy) (vd : VReg) (a b : VSrc) (mk : MReg) : Sem :=
  intSem2 t vd a b mk fun w x y => Nat.land x (2 ^ w - 1 - y)
/-- VANDN. -/
def execVandn (t : ETy) (vd : VReg) (a b : VSrc) (mk : MReg) (s : State) : Outcome State Fault Refusal := (semVandn t vd a b mk).run s

/-- VSHL: a shifted left by b mod w (R107). -/
def semVshl (t : ETy) (vd : VReg) (a b : VSrc) (mk : MReg) : Sem :=
  intSem2 t vd a b mk fun w x y => x * 2 ^ (y % w)
/-- VSHL. -/
def execVshl (t : ETy) (vd : VReg) (a b : VSrc) (mk : MReg) (s : State) : Outcome State Fault Refusal := (semVshl t vd a b mk).run s

/-- VSHR: a shifted right logically by b mod w (R107). -/
def semVshr (t : ETy) (vd : VReg) (a b : VSrc) (mk : MReg) : Sem :=
  intSem2 t vd a b mk fun w x y => x / 2 ^ (y % w)
/-- VSHR. -/
def execVshr (t : ETy) (vd : VReg) (a b : VSrc) (mk : MReg) (s : State) : Outcome State Fault Refusal := (semVshr t vd a b mk).run s

/-- VSAR: a shifted right arithmetically by b mod w (R107). -/
def semVsar (t : ETy) (vd : VReg) (a b : VSrc) (mk : MReg) : Sem :=
  intSem2 t vd a b mk fun w x y => ofI w (toI w x / 2 ^ (y % w))
/-- VSAR. -/
def execVsar (t : ETy) (vd : VReg) (a b : VSrc) (mk : MReg) (s : State) : Outcome State Fault Refusal := (semVsar t vd a b mk).run s

/-- VADDS: the saturated sum (R107). -/
def semVadds (t : ETy) (vd : VReg) (a b : VSrc) (mk : MReg) : Sem :=
  intSem2 t vd a b mk fun w x y => satI w (toI w x + toI w y)
/-- VADDS. -/
def execVadds (t : ETy) (vd : VReg) (a b : VSrc) (mk : MReg) (s : State) : Outcome State Fault Refusal := (semVadds t vd a b mk).run s

/-- VSUBS: the saturated difference (R107). -/
def semVsubs (t : ETy) (vd : VReg) (a b : VSrc) (mk : MReg) : Sem :=
  intSem2 t vd a b mk fun w x y => satI w (toI w x - toI w y)
/-- VSUBS. -/
def execVsubs (t : ETy) (vd : VReg) (a b : VSrc) (mk : MReg) (s : State) : Outcome State Fault Refusal := (semVsubs t vd a b mk).run s

/-- VABS: |a|; the least value returns itself (R107). -/
def semVabs (t : ETy) (vd : VReg) (a : VSrc) (mk : MReg) : Sem :=
  intSem1 t vd a mk fun w x => (toI w x).natAbs
/-- VABS. -/
def execVabs (t : ETy) (vd : VReg) (a : VSrc) (mk : MReg) (s : State) : Outcome State Fault Refusal := (semVabs t vd a mk).run s

/-! ## Compares and masks (R108, R109) -/

/-- The conditions of R85 on elements of width w (R108). -/
def condElem (c : Cond) (w x y : Nat) : Bool :=
  match c with
  | .eq => x == y
  | .ne => x != y
  | .lt => decide (toI w x < toI w y)
  | .le => decide (toI w x ≤ toI w y)
  | .gt => decide (toI w y < toI w x)
  | .ge => decide (toI w y ≤ toI w x)
  | .ltu => decide (x < y)
  | .leu => decide (x ≤ y)
  | .gtu => decide (y < x)
  | .geu => decide (y ≤ x)
  | .tst => Nat.land x y != 0
  | .ntst => Nat.land x y == 0

/-- The conditions of VFCMP (R108). -/
def condF (c : VfCond) (x y : FVal) : Bool :=
  let un := x == .nan || y == .nan
  match c with
  | .eq => fvEq x y
  | .ne => un || !fvEq x y
  | .lt => fvLt false x y
  | .le => !un && !fvLt false y x
  | .gt => fvLt false y x
  | .ge => !un && !fvLt false x y
  | .un => un
  | .ord => !un

/-- The 64 bits of a mask from its bits. -/
def packMask (f : Nat → Bool) : Word := word ((List.range 64).foldr (fun i a => 2 * a + b2n (f i)) 0)

/-- The element that forms result bit i of a compare (R108). -/
def cmpElem (w sl i : Nat) : Nat := if w = 64 then i / 2 else if w = 32 then i else if w = 16 then 2 * i + sl else 4 * i + sl

/-- A meaning that writes 64 result bits and their complement to two masks. -/
def maskSem (l : List VSrc) (md me : MReg) (f : State → Nat → Bool) : Sem :=
  vecSem l fun s => (s.wm md (packMask (f s))).wm me (~~~(packMask (f s)))

/-- VCMP: a result bit for each lane (R108). -/
def semVcmp (c : Cond) (t : ETy) (md me : MReg) (a b : VSrc) (sl : BitVec 2) : Sem :=
  maskSem [a, b] md me fun s i =>
    let k := cmpElem t.width sl.toNat i
    condElem c t.width (elem t.width (s.src a) k) (elem t.width (s.src b) k)
/-- VCMP. -/
def execVcmp (c : Cond) (t : ETy) (md me : MReg) (a b : VSrc) (sl : BitVec 2) (s : State) : Outcome State Fault Refusal := (semVcmp c t md me a b sl).run s

/-- VFCMP: a result bit for each lane, without flags (R108). -/
def semVfcmp (c : VfCond) (t : ETy) (md me : MReg) (a b : VSrc) (sl : BitVec 2) : Sem :=
  maskSem [a, b] md me fun s i =>
    let k := cmpElem t.width sl.toNat i
    condF c (t.fmt.decode (elem t.width (s.src a) k)) (t.fmt.decode (elem t.width (s.src b) k))
/-- VFCMP. -/
def execVfcmp (c : VfCond) (t : ETy) (md me : MReg) (a b : VSrc) (sl : BitVec 2) (s : State) : Outcome State Fault Refusal := (semVfcmp c t md me a b sl).run s

/-- MLOG: a function of two masks, bit by bit (R109). -/
def semMlog (op : LogOp) (md me ma mb : MReg) : Sem :=
  maskSem [] md me fun s i => logHolds op ((s.rm ma).getLsbD i) ((s.rm mb).getLsbD i)
/-- MLOG. -/
def execMlog (op : LogOp) (md me ma mb : MReg) (s : State) : Outcome State Fault Refusal := (semMlog op md me ma mb).run s

/-- MCNT: x[xd] := the number of one bits (R109). -/
def semMcnt (xd : XReg) (ma : MReg) : Sem :=
  aluSem xd fun s => word (popc64 (s.rm ma))
/-- MCNT. -/
def execMcnt (xd : XReg) (ma : MReg) (s : State) : Outcome State Fault Refusal := (semMcnt xd ma).run s

/-- MFIRST: x[xd] := the lowest one bit, or 64 (R109). -/
def semMfirst (xd : XReg) (ma : MReg) : Sem :=
  aluSem xd fun s => word (ctz64 (s.rm ma))
/-- MFIRST. -/
def execMfirst (xd : XReg) (ma : MReg) (s : State) : Outcome State Fault Refusal := (semMfirst xd ma).run s

/-- VSEL: the mask selects between vs1 and vs2 (R110). -/
def semVsel (t : ETy) (vd : VReg) (a b : VSrc) (mk : MReg) : Sem :=
  vecSem [a, b] fun s => s.wv vd (maskedRow t.width (s.rm mk) (s.src b) fun i => elem t.width (s.src a) i)
/-- VSEL. -/
def execVsel (t : ETy) (vd : VReg) (a b : VSrc) (mk : MReg) (s : State) : Outcome State Fault Refusal := (semVsel t vd a b mk).run s

/-! ## Random numbers (R128) -/

/-- The element of VRAND from its draw (R128). -/
def randElem (t : ETy) (z : Word) : Nat :=
  match t with
  | .i32 => z.toNat / 2 ^ 32
  | .f32 => (fmt32.rne (.fin false (z.toNat / 2 ^ 40) (-24))).1
  | .bf16 => ((ETy.fmt .bf16).rne (.fin false (z.toNat / 2 ^ 56) (-8))).1
  | _ => z.toNat

/-- VRAND: draws n counter values and writes each enabled element (R128). -/
def semVrand (t : ETy) (vd : VReg) (mk : MReg) : Sem :=
  { eff := fun s =>
      let c := s.me
      (s.wv vd (maskedRow t.width (s.rm mk) (s.lv vd) fun i => randElem t (c.draws i))).mapMe fun c =>
        c.advance t.count }
/-- VRAND. -/
def execVrand (t : ETy) (vd : VReg) (mk : MReg) (s : State) : Outcome State Fault Refusal := (semVrand t vd mk).run s

end Sys2Proof.Machine
end

