-- ==== Sys2Proof/Machine/VectorMove.lean ====
section
/-! DEFINITION. Conversions, permutes, reductions, sort and merge, and the optimiser steps (R111 to R127). -/

namespace Sys2Proof.Machine

open Host (Outcome)

/-! ## Conversions (R111, R112) -/

/-- Element k of width w of the part of a row that begins at bit `off`. -/
def partElem (w off k : Nat) (r : Row) : Nat := r.toNat / 2 ^ (off + w * k) % 2 ^ w

/-- A row with n elements of width w from bit `off` replaced. -/
def putPart (old : Row) (off w : Nat) (l : List Nat) : Row :=
  let v := l.foldr (fun x a => x % 2 ^ w + 2 ^ w * a) 0
  let top := off + w * l.length
  BitVec.ofNat 2048 (old.toNat / 2 ^ top * 2 ^ top + v * 2 ^ off + old.toNat % 2 ^ off)

/-- The elements, and the bit at which the part of each side begins, of a conversion (R111). -/
def cvtCount (d sT : ETy) : Nat := 2048 / Nat.max d.width sT.width
/-- The first bit of the source's part. -/
def cvtSrcOff (d sT : ETy) (p : Nat) : Nat := if sT.width < d.width then p * cvtCount d sT * sT.width else 0
/-- The first bit of the destination's part. -/
def cvtDstOff (d sT : ETy) (p : Nat) : Nat := if d.width < sT.width then p * cvtCount d sT * d.width else 0

/-- The value of an integer element (R61). -/
def intVal (signed : Bool) (w x : Nat) : Int := if signed then toI w x else Int.ofNat x

/-- SAT to the range of width w of a signedness, as a bit pattern. -/
def satTo (signed : Bool) (w : Nat) (v : Int) : Nat :=
  if signed then satI w v else (max 0 (min (2 ^ w - 1) v)).toNat

/-- One element of VCVT (`signed`) or VCVTU (R65 to R67, R112). -/
def cvtElem (signed : Bool) (d sT : ETy) (rnd : Rnd) (u x : Nat) : Nat × Nat :=
  match d.isFloat, sT.isFloat with
  | true, true => d.fmt.cvt rnd u (sT.fmt.decode x)
  | false, true => toIntCvt d.width signed rnd u (sT.fmt.decode x)
  | true, false => d.fmt.cvt rnd u (fvOfInt (intVal signed sT.width x) 0)
  | false, false =>
    if sT.width ≤ d.width then (ofI d.width (intVal signed sT.width x), 0)
    else (satTo signed d.width (intVal signed sT.width x), 0)

/-- v[vd] with the enabled elements of a conversion written into its part, their flags, and the draw of SR (R111). -/
def State.convert (s : State) (d sT : ETy) (rnd : Rnd) (vd : VReg) (a : VSrc) (mk : MReg) (p : Nat)
    (f : Nat → Nat → Nat × Nat) : State :=
  let n := cvtCount d sT
  let c := s.me
  let old := s.lv vd
  let on := fun k => maskOn (Nat.max d.width sT.width) (s.rm mk) k
  let res := (List.range n).map fun k =>
    if on k then f (drawHigh (c.draws k)) (partElem sT.width (cvtSrcOff d sT p) k (s.src a))
    else (partElem d.width (cvtDstOff d sT p) k old, 0)
  let s := s.wv vd (putPart old (cvtDstOff d sT p) d.width (res.map (·.1)))
  s.mapMe fun c =>
    let c := c.setFlags (res.foldl (fun a e => a ||| e.2) 0)
    if rnd = .sr then c.advance n else c

/-- VCVT: conversion, signed integers (R112). -/
def semVcvt (d sT : ETy) (rnd : Rnd) (vd : VReg) (a : VSrc) (mk : MReg) (part : BitVec 4) : Sem :=
  vecSem [a] fun s => s.convert d sT rnd vd a mk part.toNat (cvtElem true d sT rnd)
/-- VCVT. -/
def execVcvt (d sT : ETy) (rnd : Rnd) (vd : VReg) (a : VSrc) (mk : MReg) (part : BitVec 4) (s : State) : Outcome State Fault Refusal := (semVcvt d sT rnd vd a mk part).run s

/-- VCVTU: conversion, unsigned integers (R112). -/
def semVcvtu (d sT : ETy) (rnd : Rnd) (vd : VReg) (a : VSrc) (mk : MReg) (part : BitVec 4) : Sem :=
  vecSem [a] fun s => s.convert d sT rnd vd a mk part.toNat (cvtElem false d sT rnd)
/-- VCVTU. -/
def execVcvtu (d sT : ETy) (rnd : Rnd) (vd : VReg) (a : VSrc) (mk : MReg) (part : BitVec 4) (s : State) : Outcome State Fault Refusal := (semVcvtu d sT rnd vd a mk part).run s

/-! ## Block-scaled conversion with outliers (R113) -/

/-- The result of one element of a block-scaled conversion: a code and flags, or an outlier (R113). `sc` is the E8M0
scale. -/
def quantElem (d : ETy) (rnd : Rnd) (u sc : Nat) (x : FVal) : Option (Nat × Nat) :=
  if sc = 255 then some (d.fmt.cvt rnd u .nan)
  else match x with
    | .nan => some (d.fmt.cvt rnd u .nan)
    | .inf _ => none
    | .fin neg m e =>
      let y : Int := e + 127 - sc
      let top := d.fmt.decode d.fmt.maxMag
      if fvLt false top (.fin false m y) then none else some (d.fmt.round rnd u neg m y false)

/-- The steps of R113 over the elements in ascending order: the results, the flags, and the state with the captured
records appended. `l` lists, for each element, its index, whether it is enabled, the scale, the value, the draw and
the old bits. -/
def State.quantize (s : State) (k : CtxKey) (sl : SReg) (d : ETy) (rnd : Rnd) (idx : Nat → Nat)
    (l : List (Nat × Bool × Nat × FVal × Nat × Nat)) : State × List Nat × Nat :=
  l.foldl (fun acc e =>
    let (s, out, fl) := acc
    let (i, on, sc, x, u, old) := e
    if !on then (s, out ++ [old], fl)
    else match quantElem d rnd u sc x with
      | some r => (s, out ++ [r.1], fl ||| r.2)
      | none =>
        if ((s.ctx k).stream sl).hasRecord then
          (s.appendRecord k sl (idx i) (fmt32.rne x).1, out ++ [0], fl)
        else
          let neg := match x with | .inf b => b | .fin b _ _ => b | .nan => false
          (s, out ++ [d.fmt.signed neg d.fmt.maxMag], fl ||| fOUTOV ||| fINX)) (s, [], 0)

/-- The stream protocol fault of a list operand (R103, R113). -/
def State.listFault (s : State) (sl : SReg) : Option TrapInfo :=
  let x := s.me.stream sl
  if x.bound && x.kind == 2 then none else some protocolFault

/-- A state with the streams of the issuing context but one as they stand in another. -/
def State.keepStreams (t s : State) (sl : SReg) : State :=
  t.mapMe fun c => { c with streams := tput {} sl.toNat (c.stream sl) s.me.streams }

/-- VCVTQ but for what the X slot of its bundle sees: conversion to a narrow format under block scales, outliers captured in
a list (R113). It may write the list's tail row, so that it waits for an acquire's reply (R186). -/
def vcvtqCore (d sT : ETy) (rnd : Rnd) (vd : VReg) (a b : VSrc) (sl : SReg) (mk : MReg) (part : BitVec 4) : Sem :=
  ({ fault := fun s => ((s.srcFault [a, b]).or (s.listFault sl)).or (s.srcBad [a, b])
     block := fun s => s.srcBlock [a, b]
     eff := fun s =>
      let s := s.consume [a, b]
      let n := cvtCount d sT
      let c := s.me
      let old := s.lv vd
      let off := cvtDstOff d sT part.toNat
      let eb := (c.stream sl).eb
      let l := (List.range n).map fun k =>
        (k, maskOn sT.width (s.rm mk) k, elem 8 (s.src b) (k / 32), sT.fmt.decode (elem sT.width (s.src a) k),
          drawHigh (c.draws k), partElem d.width off k old)
      let (s, out, fl) := s.quantize s.iss.key sl d rnd (fun k => (eb + k) % 2 ^ 32) l
      let s := s.wv vd (putPart old off d.width out)
      s.mapMe fun c =>
        let x := c.stream sl
        let c := (c.setStream sl { x with eb := (x.eb + n) % 2 ^ 32 }).setFlags fl
        if rnd = .sr then c.advance n else c } : Sem).onRow

/-- VCVTQ: the X slot of its bundle is checked on the rows that it has written (R40, R113). -/
def semVcvtq (d sT : ETy) (rnd : Rnd) (vd : VReg) (a b : VSrc) (sl : SReg) (mk : MReg) (part : BitVec 4) : Sem :=
  let m := vcvtqCore d sT rnd vd a b sl mk part
  { m with first := fun s => if (m.fault s).isNone then (m.eff s).keepStreams s sl else s }
/-- VCVTQ. -/
def execVcvtq (d sT : ETy) (rnd : Rnd) (vd : VReg) (a b : VSrc) (sl : SReg) (mk : MReg) (part : BitVec 4) (s : State) : Outcome State Fault Refusal := (semVcvtq d sT rnd vd a b sl mk part).run s

/-! ## LQ2 (R73, R74, R114) -/

/-- The eight values of an LQ2 index in quarters, by coordinate (R74); `cb` is the codebook entry of q[15:8]. -/
def lq2Quarters (cb q j : Nat) : Int :=
  let s7 := ((List.range 7).foldl (fun a i => a + bits q (1 + i) 1) 0) % 2
  let neg := if j = 7 then s7 = 1 else bits q (1 + j) 1 = 1
  let mag : Int := 2 * bits cb (4 * j) 4
  (if neg then -mag else mag) + bits q 0 1

/-- VUNPK: decodes LQ2 indices to BF16 (R114). -/
def semVunpk (vd : VReg) (a : VSrc) (mk : MReg) (part : BitVec 3) : Sem :=
  vecSem [a] fun s =>
    let cb := (s.core s.myCore).array.codebook
    s.wv vd (maskedRow 16 (s.rm mk) (s.lv vd) fun k =>
      let q := elem 16 (s.src a) (16 * part.toNat + k / 8)
      ((ETy.fmt .bf16).rne (fvOfInt (lq2Quarters (tget 0 (q / 256) cb) q (k % 8)) (-2))).1)
/-- VUNPK. -/
def execVunpk (vd : VReg) (a : VSrc) (mk : MReg) (part : BitVec 3) (s : State) : Outcome State Fault Refusal := (semVunpk vd a mk part).run s

/-! ## Permutes (R115 to R117) -/

/-- VBCAST: every element := elem(vs1, idx) (R115). -/
def semVbcast (t : ETy) (vd : VReg) (a : VSrc) (mk : MReg) (idx : BitVec 16) : Sem :=
  vecSem [a] fun s => s.wv vd (maskedRow t.width (s.rm mk) (s.lv vd) fun _ => elem t.width (s.src a) idx.toNat)
/-- VBCAST. -/
def execVbcast (t : ETy) (vd : VReg) (a : VSrc) (mk : MReg) (idx : BitVec 16) (s : State) : Outcome State Fault Refusal := (semVbcast t vd a mk idx).run s

/-- VBCAST_SCALAR: every element := the low bits of x[xs] (R115). -/
def semVbcastScalar (t : ETy) (vd : VReg) (xs : XReg) (mk : MReg) : Sem :=
  { eff := fun s => s.wv vd (maskedRow t.width (s.rm mk) (s.lv vd) fun _ => (s.rx xs).toNat) }
/-- VBCAST_SCALAR. -/
def execVbcastScalar (t : ETy) (vd : VReg) (xs : XReg) (mk : MReg) (s : State) : Outcome State Fault Refusal := (semVbcastScalar t vd xs mk).run s

/-- VINS: elem(vd, idx) := the low bits of x[xs] (R115). -/
def semVins (t : ETy) (vd : VReg) (xs : XReg) (idx : BitVec 16) : Sem :=
  { eff := fun s => s.wv vd (maskedRow t.width (BitVec.allOnes 64) (s.rv vd) fun k =>
      if k = idx.toNat then (s.rx xs).toNat else elem t.width (s.rv vd) k) }
/-- VINS. -/
def execVins (t : ETy) (vd : VReg) (xs : XReg) (idx : BitVec 16) (s : State) : Outcome State Fault Refusal := (semVins t vd xs idx).run s

/-- VEXT: x[xd] := elem(vs1, idx), zero-extended (R115). -/
def semVext (t : ETy) (xd : XReg) (a : VSrc) (idx : BitVec 16) : Sem :=
  vecSem [a] fun s => s.wx xd (word (elem t.width (s.src a) idx.toNat))
/-- VEXT. -/
def execVext (t : ETy) (xd : XReg) (a : VSrc) (idx : BitVec 16) (s : State) : Outcome State Fault Refusal := (semVext t xd a idx).run s

/-- Element j of two rows in turn (R115). -/
def elem2 (w : Nat) (a b : Row) (j : Nat) : Nat := if j < 2048 / w then elem w a j else elem w b (j - 2048 / w)

/-- VPERM: elem(vd, k) := elem(vs1, elem(vs2, k) mod n) (R115). -/
def semVperm (t : ETy) (vd : VReg) (a b : VSrc) (mk : MReg) : Sem :=
  vecSem [a, b] fun s => s.wv vd (maskedRow t.width (s.rm mk) (s.lv vd) fun k =>
    elem t.width (s.src a) (elem t.width (s.src b) k % t.count))
/-- VPERM. -/
def execVperm (t : ETy) (vd : VReg) (a b : VSrc) (mk : MReg) (s : State) : Outcome State Fault Refusal := (semVperm t vd a b mk).run s

/-- VPERM2: the elements of vs1 and vs2 that vs3 names (R115). -/
def semVperm2 (t : ETy) (vd : VReg) (a b c : VSrc) (mk : MReg) : Sem :=
  vecSem [a, b, c] fun s => s.wv vd (maskedRow t.width (s.rm mk) (s.lv vd) fun k =>
    elem2 t.width (s.src a) (s.src b) (elem t.width (s.src c) k % (2 * t.count)))
/-- VPERM2. -/
def execVperm2 (t : ETy) (vd : VReg) (a b c : VSrc) (mk : MReg) (s : State) : Outcome State Fault Refusal := (semVperm2 t vd a b c mk).run s

/-- VZIP: interleaves halves of vs1 and vs2 (R115). -/
def semVzip (hi : Bool) (t : ETy) (vd : VReg) (a b : VSrc) (mk : MReg) : Sem :=
  vecSem [a, b] fun s => s.wv vd (maskedRow t.width (s.rm mk) (s.lv vd) fun k =>
    let j := b2n hi * (t.count / 2) + k / 2
    if k % 2 = 0 then elem t.width (s.src a) j else elem t.width (s.src b) j)
/-- VZIP. -/
def execVzip (hi : Bool) (t : ETy) (vd : VReg) (a b : VSrc) (mk : MReg) (s : State) : Outcome State Fault Refusal := (semVzip hi t vd a b mk).run s

/-- VUNZIP: the even or odd elements of vs1 and vs2 (R115). -/
def semVunzip (od : Bool) (t : ETy) (vd : VReg) (a b : VSrc) (mk : MReg) : Sem :=
  vecSem [a, b] fun s => s.wv vd (maskedRow t.width (s.rm mk) (s.lv vd) fun k =>
    elem2 t.width (s.src a) (s.src b) (2 * k + b2n od))
/-- VUNZIP. -/
def execVunzip (od : Bool) (t : ETy) (vd : VReg) (a b : VSrc) (mk : MReg) (s : State) : Outcome State Fault Refusal := (semVunzip od t vd a b mk).run s

/-- The positions that a mask selects, in ascending order (R116). -/
def selected (w : Nat) (m : Word) : List Nat := (List.range (2048 / w)).filter (maskOn w m)

/-- VCOMP: the selected elements moved to the lowest positions, zeros above (R116). -/
def semVcomp (t : ETy) (vd : VReg) (a : VSrc) (mk : MReg) : Sem :=
  vecSem [a] fun s =>
    s.wv vd (packRow t.width ((selected t.width (s.rm mk)).map fun k => elem t.width (s.src a) k))
/-- VCOMP. -/
def execVcomp (t : ETy) (vd : VReg) (a : VSrc) (mk : MReg) (s : State) : Outcome State Fault Refusal := (semVcomp t vd a mk).run s

/-- VEXPD: the lowest elements moved to the selected positions, zeros elsewhere (R116). -/
def semVexpd (t : ETy) (vd : VReg) (a : VSrc) (mk : MReg) : Sem :=
  vecSem [a] fun s =>
    let m := s.rm mk
    s.wv vd (packRow t.width ((List.range t.count).map fun k =>
      if maskOn t.width m k then elem t.width (s.src a) ((List.range k).filter (maskOn t.width m)).length else 0))
/-- VEXPD. -/
def execVexpd (t : ETy) (vd : VReg) (a : VSrc) (mk : MReg) (s : State) : Outcome State Fault Refusal := (semVexpd t vd a mk).run s

/-- The funnel shift of two rows by bytes under a lane mask (R117). -/
def funnel (a b old : Row) (m : Word) (sh : Nat) : Row :=
  mergeRow old (packRow 8 ((List.range 256).map fun j => elem2 8 a b (j + sh))) (laneMask 4 m)

/-- VROTM: bytewise funnel shift by an immediate (R117). -/
def semVrotm (vd : VReg) (a b : VSrc) (mk : MReg) (sh : BitVec 8) : Sem :=
  vecSem [a, b] fun s => s.wv vd (funnel (s.src a) (s.src b) (s.lv vd) (s.rm mk) sh.toNat)
/-- VROTM. -/
def execVrotm (vd : VReg) (a b : VSrc) (mk : MReg) (sh : BitVec 8) (s : State) : Outcome State Fault Refusal := (semVrotm vd a b mk sh).run s

/-- VROTM_SCALAR: bytewise funnel shift by x[xs][7:0] (R117). -/
def semVrotmScalar (vd : VReg) (a b : VSrc) (mk : MReg) (xs : XReg) : Sem :=
  vecSem [a, b] fun s =>
    s.wv vd (funnel (s.src a) (s.src b) (s.lv vd) (s.rm mk) ((s.rx xs).toNat % 256))
/-- VROTM_SCALAR. -/
def execVrotmScalar (vd : VReg) (a b : VSrc) (mk : MReg) (xs : XReg) (s : State) : Outcome State Fault Refusal := (semVrotmScalar vd a b mk xs).run s

/-! ## Reductions (R118, R119) -/

/-- One level of a pairwise sum, with the flags of its additions. -/
def pairSum : List Nat → List Nat × Nat
  | a :: b :: r =>
    let x := fmt32.add a b
    let y := pairSum r
    (x.1 :: y.1, x.2 ||| y.2)
  | l => (l, 0)

/-- The tree of R119: `n` levels of pairwise sums. -/
def treeSum : Nat → List Nat × Nat → List Nat × Nat
  | 0, p => p
  | n + 1, p => treeSum n ((pairSum p.1).1, p.2 ||| (pairSum p.1).2)

/-- The elements of a reduction: a masked-off element contributes the identity (R118). -/
def reduced (w : Nat) (m : Word) (ident : Nat) (r : Row) : List Nat :=
  (List.range (2048 / w)).map fun k => if maskOn w m k then elem w r k else ident

/-- The terms of VRSUM in FP32: a masked-off element is -0 (R118, R119). -/
def rsumTerms (t : ETy) (m : Word) (r : Row) : List Nat :=
  (reduced t.width m (t.fmt.signed true 0) r).map fun x => (fmt32.rne (t.fmt.decode x)).1

/-- VRSUM: the FP32 sum in the order of R119 (R118, R119). -/
def semVrsum (t : ETy) (vd : VReg) (a : VSrc) (mk : MReg) : Sem :=
  vecSem [a] fun s =>
    let ts := rsumTerms t (s.rm mk) (s.src a)
    let r := treeSum (if t.width = 16 then 7 else 6) (ts, 0)
    (s.wv vd (BitVec.ofNat 2048 (r.1.headD 0))).mapMe fun c => c.setFlags r.2
/-- VRSUM. -/
def execVrsum (t : ETy) (vd : VReg) (a : VSrc) (mk : MReg) (s : State) : Outcome State Fault Refusal := (semVrsum t vd a mk).run s

/-- The extreme of elements (R118): floating point by R64, integers as signed. -/
def extreme (t : ETy) (big : Bool) (l : List Nat) : Nat :=
  let ident := if t.isInt then (if big then 2 ^ (t.width - 1) else 2 ^ (t.width - 1) - 1)
    else t.fmt.signed big t.fmt.infMag
  let r := l.foldl (fun a x =>
    if t.isInt then (if decide (toI t.width a < toI t.width x) = big then x else a)
    else if big then t.fmt.max a x else t.fmt.min a x) (l.headD ident)
  if t.isInt then r else if t.fmt.decode r = .nan then t.fmt.qnan else r

/-- The identity of VRMAX (`big`) or VRMIN (R118). -/
def extremeIdent (t : ETy) (big : Bool) : Nat :=
  if t.isInt then (if big then 2 ^ (t.width - 1) else 2 ^ (t.width - 1) - 1) else t.fmt.signed big t.fmt.infMag

/-- VRMAX: the extreme element, zeros above (R118). -/
def semVrmax (t : ETy) (vd : VReg) (a : VSrc) (mk : MReg) : Sem :=
  vecSem [a] fun s =>
    s.wv vd (BitVec.ofNat 2048 (extreme t true (reduced t.width (s.rm mk) (extremeIdent t true) (s.src a))))
/-- VRMAX. -/
def execVrmax (t : ETy) (vd : VReg) (a : VSrc) (mk : MReg) (s : State) : Outcome State Fault Refusal := (semVrmax t vd a mk).run s

/-- VRMIN: the extreme element, zeros above (R118). -/
def semVrmin (t : ETy) (vd : VReg) (a : VSrc) (mk : MReg) : Sem :=
  vecSem [a] fun s =>
    s.wv vd (BitVec.ofNat 2048 (extreme t false (reduced t.width (s.rm mk) (extremeIdent t false) (s.src a))))
/-- VRMIN. -/
def execVrmin (t : ETy) (vd : VReg) (a : VSrc) (mk : MReg) (s : State) : Outcome State Fault Refusal := (semVrmin t vd a mk).run s

/-- VRADD: the 64-bit sum of sign-extended elements (R118). -/
def semVradd (t : ETy) (vd : VReg) (a : VSrc) (mk : MReg) : Sem :=
  vecSem [a] fun s =>
    let sum : Int := (reduced t.width (s.rm mk) 0 (s.src a)).foldl (fun a x => a + toI t.width x) 0
    s.wv vd (BitVec.ofNat 2048 (ofI 64 sum))
/-- VRADD. -/
def execVradd (t : ETy) (vd : VReg) (a : VSrc) (mk : MReg) (s : State) : Outcome State Fault Refusal := (semVradd t vd a mk).run s

/-! ## Sort and merge (R120 to R123) -/

/-- The register after a key register. -/
def nextReg (r : VReg) : VReg := r + 1

/-- The (key, payload) pairs of a register pair. -/
def pairsOf (k p : Row) : List (Nat × Nat) := (List.range 32).map fun i => (elem 64 k i, elem 64 p i)

/-- A pair put behind every pair whose key is not greater, keys as signed (R121). -/
def insertPair (x : Nat × Nat) : List (Nat × Nat) → List (Nat × Nat)
  | [] => [x]
  | y :: r => if toI 64 y.1 ≤ toI 64 x.1 then y :: insertPair x r else x :: y :: r

/-- The stable ascending sort (R121). -/
def sortPairs (l : List (Nat × Nat)) : List (Nat × Nat) := l.foldl (fun a x => insertPair x a) []

/-- The merge of R122: `n` steps. -/
def mergePairs : Nat → List (Nat × Nat) → List (Nat × Nat) → List (Nat × Nat)
  | 0, _, _ => []
  | _ + 1, [], [] => []
  | n + 1, x :: xs, [] => x :: mergePairs n xs []
  | n + 1, [], y :: ys => y :: mergePairs n [] ys
  | n + 1, x :: xs, y :: ys =>
    if toI 64 x.1 ≤ toI 64 y.1 then x :: mergePairs n xs (y :: ys) else y :: mergePairs n (x :: xs) ys

/-- 32 pairs written to a register pair. -/
def State.wpairs (s : State) (vd : VReg) (l : List (Nat × Nat)) : State :=
  (s.wv vd (packRow 64 (l.map (·.1)))).wv (nextReg vd) (packRow 64 (l.map (·.2)))

/-- VSORT: the stable ascending sort of 32 keys with their payloads (R121). -/
def semVsort (vd a : VReg) : Sem :=
  { eff := fun s => s.wpairs vd (sortPairs (pairsOf (s.rv a) (s.rv (nextReg a)))) }
/-- VSORT. -/
def execVsort (vd a : VReg) (s : State) : Outcome State Fault Refusal := (semVsort vd a).run s

/-- VMRG: the lower or upper half of the merge (R122). -/
def semVmrg (hi : Bool) (vd a b : VReg) : Sem :=
  { eff := fun s =>
      let l := mergePairs 64 (pairsOf (s.rv a) (s.rv (nextReg a))) (pairsOf (s.rv b) (s.rv (nextReg b)))
      s.wpairs vd ((l.drop (32 * b2n hi)).take 32) }
/-- VMRG. -/
def execVmrg (hi : Bool) (vd a b : VReg) (s : State) : Outcome State Fault Refusal := (semVmrg hi vd a b).run s

/-- VMSPLIT: the number of keys of vs1 at most element j of vs2 (R123). -/
def semVmsplit (vd : VReg) (a b : VSrc) (mk : MReg) : Sem :=
  vecSem [a, b] fun s => s.wv vd (maskedRow 64 (s.rm mk) (s.lv vd) fun j =>
    ((List.range 32).filter fun i => decide (toI 64 (elem 64 (s.src a) i) ≤ toI 64 (elem 64 (s.src b) j))).length)
/-- VMSPLIT. -/
def execVmsplit (vd : VReg) (a b : VSrc) (mk : MReg) (s : State) : Outcome State Fault Refusal := (semVmsplit vd a b mk).run s

/-! ## Optimiser steps (R124 to R127) -/

/-- The hyperparameters of the block, in FP32 (R124). -/
structure Hyper where
  lr : Nat
  b1 : Nat
  ob1 : Nat
  b2 : Nat
  ob2 : Nat
  eps : Nat
  wd : Nat
  c1 : Nat
  c2 : Nat
  gs : Nat

/-- The block of 64 bytes that x[xh] names (R124). -/
def State.block64 (s : State) (ea : Word) : List Byte :=
  rowBytes (s.row s.myCore (ea.toNat / 256)) (ea.toNat % 256 / 64 * 64) 64

/-- A little-endian field of a block. -/
def field (l : List Byte) (lo n : Nat) : Nat := ofBytes ((l.drop lo).take n)

/-- The hyperparameters of a block; its reserved bytes are not read (R124; DEDUCED, log 50). -/
def hyperOf (l : List Byte) : Hyper :=
  { lr := field l 0 4, b1 := field l 4 4, ob1 := field l 8 4, b2 := field l 12 4, ob2 := field l 16 4,
    eps := field l 20 4, wd := field l 24 4, c1 := field l 28 4, c2 := field l 32 4, gs := field l 36 4 }

/-- FP32 operations that carry flags. -/
def m32 (a b : Nat × Nat) : Nat × Nat := ((fmt32.mul a.1 b.1).1, (fmt32.mul a.1 b.1).2 ||| a.2 ||| b.2)
/-- The rounded sum with flags. -/
def a32 (a b : Nat × Nat) : Nat × Nat := ((fmt32.add a.1 b.1).1, (fmt32.add a.1 b.1).2 ||| a.2 ||| b.2)
/-- The fused a x b + c with flags. -/
def fma32 (a b c : Nat × Nat) : Nat × Nat :=
  ((fmt32.fma a.1 b.1 c.1).1, (fmt32.fma a.1 b.1 c.1).2 ||| a.2 ||| b.2 ||| c.2)
/-- The fused c - a x b with flags. -/
def fnma32 (a b c : Nat × Nat) : Nat × Nat :=
  ((fmt32.fnma a.1 b.1 c.1).1, (fmt32.fnma a.1 b.1 c.1).2 ||| a.2 ||| b.2 ||| c.2)
/-- The rounded square root with flags. -/
def sqrt32 (a : Nat × Nat) : Nat × Nat := ((fmt32.sqrt a.1).1, (fmt32.sqrt a.1).2 ||| a.2)
/-- The rounded quotient with flags. -/
def div32 (a b : Nat × Nat) : Nat × Nat := ((fmt32.div a.1 b.1).1, (fmt32.div a.1 b.1).2 ||| a.2 ||| b.2)
/-- A constant without flags. -/
def c32 (a : Nat) : Nat × Nat := (a, 0)

/-- Whether an FP32 code is finite. -/
def isFin32 (a : Nat) : Bool := bits a 23 8 != 255

/-- The result of one element: skipped, or w', m', v', flags and whether v' was below zero (R125, R126). -/
structure OptElem where
  skip : Bool
  w : Nat
  m : Nat
  v : Nat
  flags : Nat
  vneg : Bool

/-- One element of VADAMW in FP32 (R125). -/
def adamElem (h : Hyper) (w m v g : Nat) : OptElem :=
  let g1 := m32 (c32 h.gs) (c32 g)
  let m1 := fma32 (c32 h.b1) (c32 m) (m32 (c32 h.ob1) g1)
  let v1 := fma32 (c32 h.b2) (c32 v) (m32 (c32 h.ob2) (m32 g1 g1))
  if !(isFin32 g && isFin32 m1.1 && isFin32 v1.1) then
    { skip := true, w := w, m := m, v := v, flags := 0, vneg := false }
  else
    let neg := decide (2 ^ 31 < v1.1)
    let v2 := if 2 ^ 31 ≤ v1.1 then (0, v1.2) else v1
    let mh := m32 m1 (c32 h.c1)
    let vh := m32 v2 (c32 h.c2)
    let den := if vh.1 % 2 ^ 31 = 0 then (h.eps, vh.2) else a32 (sqrt32 vh) (c32 h.eps)
    let upd := div32 mh den
    let w1 := fnma32 (c32 h.lr) (a32 upd (m32 (c32 h.wd) (c32 w))) (c32 w)
    { skip := false, w := w1.1, m := m1.1, v := v2.1, flags := w1.2 ||| m1.2 ||| v2.2, vneg := neg }

/-- One element of VSGDM in FP32 (R126). -/
def sgdElem (h : Hyper) (w m g : Nat) : OptElem :=
  let g1 := m32 (c32 h.gs) (c32 g)
  let d := a32 g1 (m32 (c32 h.wd) (c32 w))
  let m1 := fma32 (c32 h.b1) (c32 m) d
  if !(isFin32 g && isFin32 m1.1) then { skip := true, w := w, m := m, v := 0, flags := 0, vneg := false }
  else
    let w1 := fnma32 (c32 h.lr) m1 (c32 w)
    { skip := false, w := w1.1, m := m1.1, v := 0, flags := w1.2 ||| m1.2, vneg := false }

/-- Element k of a stream row of the optimiser: FP32, or BF16 in half H, widened exactly (R124). -/
def optElem (bf : Bool) (h : Bool) (r : Row) (k : Nat) : Nat :=
  if bf then elem 16 r (64 * b2n h + k) * 65536 else elem 32 r k

/-- SR_OPTSTAT after an instruction (R127). -/
def optStat (o : Word) (skips : Nat) (vneg : Bool) : Word :=
  word (bits o.toNat 0 1 ||| b2n vneg) + word (min (2 ^ 32 - 1) (bits o.toNat 16 32 + skips) * 65536)

/-- The heads that an optimiser step reads, a BF16 half 0 as a peek. -/
def optSrcs (sb : SReg) (bfw h g16 adam : Bool) : List VSrc :=
  [.head sb (bfw && !h), .head (sb + 1) false] ++
    (if adam then [.head (sb + 2) false, .head (sb + 3) (g16 && !h)] else [.head (sb + 2) (g16 && !h)])

/-- The output streams of an optimiser step, and whether each advances. -/
def optOuts (sb : SReg) (bfw h adam : Bool) : List (SReg × Bool) :=
  if adam then [(sb + 4, !bfw || h), (sb + 5, true), (sb + 6, true)] else [(sb + 3, !bfw || h), (sb + 4, true)]

/-- The protocol fault of writing an output stream (R103, R192). -/
def State.outFault (s : State) (l : List (SReg × Bool)) : Option TrapInfo :=
  if l.any (fun e =>
    let x := s.me.stream e.1
    !x.bound || x.kind != 1 || (e.2 && x.left == 0)) then some protocolFault else none

/-- The output tails without a free slot (R124). -/
def State.outBlock (s : State) (l : List (SReg × Bool)) : List ParkCond :=
  l.filterMap fun e =>
    let x := s.me.stream e.1
    if x.ns ≤ x.pending then some (.outFree e.1 1) else none

/-- The outputs of one optimiser step put into the tail slots: written later, the tails advanced at issue (R126, R192). -/
def State.putOuts (s : State) (l : List ((SReg × Bool) × Row256 × Row)) : State :=
  let n := s.myCore
  let s := s.mapMe fun c =>
    let num := c.acc
    let c := l.foldl (fun c e =>
      let x := c.stream e.1.1
      let pl := rowPlace (s.isFused n) n x.row
      let o : OptOut := { num := num, sn := e.1.1, core := pl.1, row := pl.2, mask := e.2.1, data := e.2.2 }
      let c := { c with outs := c.outs ++ [o] }
      c.setStream e.1.1 (if e.1.2 then x.advance 1 else x)) c
    { c with acc := num + 1 }
  l.foldl (fun s e => s.noteDue s.iss.key e.1.1) s

/-- The w output of 64 elements: FP32, or BF16 in half H, an element skipped keeping its bits (R125, R126). -/
def optW (bfw h : Bool) (rnd : Rnd) (c : Ctx) (old : Row) (l : List OptElem) : Row256 × Row × Nat :=
  if bfw then
    let res := l.zipIdx.map fun e =>
      if e.1.skip then (elem 16 old (64 * b2n h + e.2), 0)
      else (ETy.fmt .bf16).cvt rnd (drawHigh (c.draws e.2)) (fmt32.decode e.1.w)
    (byteRange (128 * b2n h) 128, packRow 16 (List.replicate (64 * b2n h) 0 ++ res.map (·.1)),
      res.foldl (fun a e => a ||| e.2) 0)
  else (fullMask, packRow 32 (l.map (·.w)), 0)

/-- The head row of a stream as the bundle read it. -/
def State.headRow (s : State) (sn : SReg) : Row := tget 0 sn.toNat s.iss.heads

/-- An optimiser step: its elements, outputs, flags, status and draw (R124 to R127). -/
def State.optStep (s : State) (t : ETy) (rnd : Rnd) (sb : SReg) (xh : XReg) (h g16 adam : Bool) : State :=
  let hp := hyperOf (s.block64 (s.rx xh))
  let bfw := t == .bf16
  let gs := s.headRow (if adam then sb + 3 else sb + 2)
  let res := (List.range 64).map fun k =>
    let w := optElem bfw h (s.headRow sb) k
    let m := optElem false h (s.headRow (sb + 1)) k
    let g := optElem g16 h gs k
    if adam then adamElem hp w m (optElem false h (s.headRow (sb + 2)) k) g else sgdElem hp w m g
  let c := s.me
  let wo := optW bfw h rnd c (s.headRow sb) res
  let outs := optOuts sb bfw h adam
  let rows : List (Row256 × Row) := [(wo.1, wo.2.1), (fullMask, packRow 32 (res.map (·.m))),
    (fullMask, packRow 32 (res.map (·.v)))]
  (s.putOuts (outs.zip rows)).mapMe fun c =>
    let c := c.setFlags (res.foldl (fun a e => a ||| e.flags) wo.2.2)
    let skips := (res.filter (·.skip)).length
    let c := { c with stat := { c.stat with optstat := optStat c.stat.optstat skips (res.any (·.vneg)) } }
    if bfw && rnd == .sr then c.advance 64 else c

/-- The parts of an optimiser step. -/
def optSem (t : ETy) (rnd : Rnd) (sb : SReg) (xh : XReg) (h g16 adam : Bool) : Sem :=
  let srcs := optSrcs sb (t == .bf16) h g16 adam
  let outs := optOuts sb (t == .bf16) h adam
  ({ fault := fun s => (((s.srcFault srcs).or (s.outFault outs)).or (s.rowFault (s.rx xh)
       ((s.rx xh).toNat % 256 / 64 * 64) ((s.rx xh).toNat % 256 / 64 * 64 + 64))).or (s.srcBad srcs)
     block := fun s => s.srcBlock srcs ++ s.outBlock outs
     eff := fun s => (s.consume srcs).optStep t rnd sb xh h g16 adam } : Sem).onRow

/-- VADAMW: one AdamW step of 64 elements (R124, R125). -/
def semVadamw (t : ETy) (rnd : Rnd) (sb : SReg) (xh : XReg) (h g16 : Bool) : Sem :=
  optSem t rnd sb xh h g16 true
/-- VADAMW. -/
def execVadamw (t : ETy) (rnd : Rnd) (sb : SReg) (xh : XReg) (h g16 : Bool) (s : State) : Outcome State Fault Refusal := (semVadamw t rnd sb xh h g16).run s

/-- VSGDM: one momentum step of 64 elements (R124, R126). -/
def semVsgdm (t : ETy) (rnd : Rnd) (sb : SReg) (xh : XReg) (h g16 : Bool) : Sem :=
  optSem t rnd sb xh h g16 false
/-- VSGDM. -/
def execVsgdm (t : ETy) (rnd : Rnd) (sb : SReg) (xh : XReg) (h g16 : Bool) (s : State) : Outcome State Fault Refusal := (semVsgdm t rnd sb xh h g16).run s

/-- OPTIMISER_OUTPUT_WRITE: the earliest output due through a stream register is written into its row; the outputs of
different instructions of a context are written in issue order (R126, R192). -/
def execOptimiserOutputWrite (k : CtxKey) (sn : SReg) (s : State) : Outcome State Fault Refusal :=
  let l := (s.ctx k).outs
  match l.find? (fun o => o.sn == sn) with
  | none => .refused .notEnabled
  | some o =>
    if (l.takeWhile fun p => p.sn != sn).all (fun p => p.num == o.num) then
      .next ((s.mapCtx k fun c => { c with outs := c.outs.erase o }).writeLocal o.core o.row o.mask o.data false)
    else .refused .notEnabled

end Sys2Proof.Machine
end

