-- ==== Sys2Proof/Machine/Matrix.lean ====
section
/-! DEFINITION. The matrix array in weight mode: streams, descriptors, the M-slot instructions (R129 to R152), and the
start and completion of an operation. -/

namespace Sys2Proof.Machine

open Host (Outcome)

/-! ## The array and its queues (R131) -/

/-- The array of a core. -/
def State.arr (s : State) (n : CoreNo) : ArrayState := (s.core n).array
/-- The array of a core changed. -/
def State.mapArr (s : State) (n : CoreNo) (f : ArrayState → ArrayState) : State :=
  s.mapCore n fun c => { c with array := f c.array }
/-- A stream's operations that are not complete, the first issued first. -/
def ArrayState.queue (a : ArrayState) (st : BitVec 2) : List MatOp := tget [] st.toNat a.queues
/-- A stream's operations set. -/
def ArrayState.setQueue (a : ArrayState) (st : BitVec 2) (l : List MatOp) : ArrayState :=
  { a with queues := tput [] st.toNat l a.queues }
/-- Whether 8 operations of a stream have not started. -/
def ArrayState.full (a : ArrayState) (st : BitVec 2) : Bool :=
  decide (8 ≤ ((a.queue st).filter fun o => o.started.isNone).length)
/-- Whether the operation at the head of a stream is held. -/
def ArrayState.headHeld (a : ArrayState) (st : BitVec 2) : Bool :=
  match a.queue st with
  | [] => false
  | o :: _ => o.held
/-- A full queue with a held operation at its head parks the context (R131). -/
def State.matBlock (s : State) (st : BitVec 2) : List ParkCond :=
  let a := s.arr s.myCore
  if a.full st && a.headHeld st then [.matrixQueue st] else []
/-- A full queue stalls the bundle (R131). -/
def State.matStall (s : State) (st : BitVec 2) : Option State :=
  let a := s.arr s.myCore
  if a.full st && !a.headHeld st then some s else none
/-- An operation put into a stream's queue. -/
def State.submit (s : State) (st : BitVec 2) (o : MatOp) : State :=
  s.mapArr s.myCore fun a =>
    { a.setQueue st (a.queue st ++ [{ o with id := a.issued }]) with issued := a.issued + 1 }

/-- The operation of an instruction, captured at issue (R131). -/
def State.matOp (s : State) (i : Instr) : MatOp := { id := 0, key := s.iss.key, instr := i }
/-- A descriptor register of the issuing context. -/
def State.desc (s : State) (d : BitVec 3) : BitVec 128 := tget 0 d.toNat s.me.d

/-- A meaning that only puts an operation into a stream's queue. -/
def matSem (st : BitVec 2) (fault : State → Option TrapInfo) (op : State → MatOp) : Sem :=
  { fault := fault, block := fun s => s.matBlock st, stall := fun s => s.matStall st,
    eff := fun s => s.submit st (op s) }

/-- The flags of an operation set in its context at its completion: a write of SR_FPSTAT on the same clk keeps them
(R69). -/
def State.setMFlags (s : State) (k : CtxKey) (f : Nat) : State :=
  s.mapCtx k fun c =>
    { c.setFlags f with late := (s.clk, (if c.late.1 = s.clk then c.late.2 else 0) ||| word f) }

/-! ## Descriptors (R133 to R136) -/

/-- A field of a descriptor (R133). -/
def dfl (d : BitVec 128) (lo len : Nat) : Nat := bits d.toNat lo len
/-- V. -/
def dVecs (d : BitVec 128) : Nat := dfl d 36 7 + 1
/-- COLS. -/
def dCols (d : BitVec 128) : Nat := dfl d 44 7
/-- The type of FMT; none for a reserved code. -/
def dFmt (d : BitVec 128) : Option ETy := ETy.ofCode? (dfl d 51 4)
/-- The width of FMT. -/
def dWidth (d : BitVec 128) : Nat := match dFmt d with | some t => t.width | none => 0
/-- The type of an accepted FMT. -/
def dType (d : BitVec 128) : ETy := (dFmt d).getD .bf16
/-- Whether ORDER is column fetch. -/
def dByCol (d : BitVec 128) : Bool := dfl d 55 1 == 1
/-- SWZ. -/
def dSwz (d : BitVec 128) : Bool := dfl d 56 1 == 1
/-- SEN. -/
def dSen (d : BitVec 128) : Bool := dfl d 80 1 == 1
/-- The row number of tile row i. -/
def dRowNo (d : BitVec 128) (i : Nat) : Nat := dfl d 0 16 + i * dfl d 24 12
/-- The elements of a vector in the scratchpad: COLS, or the indices that hold COLS weights of LQ2 (R138, DEDUCED, log 12). -/
def dElems (d : BitVec 128) : Nat := if dFmt d = some .lq2 then ceilDiv (dCols d) 8 else dCols d

/-- Whether a type takes part as an activation (R136). -/
def isAct : ETy → Bool
  | .bf16 | .f16 | .e4m3 | .e5m2 | .e3m2 | .e2m3 | .e2m1 | .i8 => true
  | _ => false
/-- Whether a type takes part as a weight (R136). -/
def isWeight (t : ETy) : Bool := isAct t || t == .lq2
/-- Whether a type is a drain's output (R136). -/
def isOut (t : ETy) : Bool := t.isFloat
/-- Whether a type is a spline input or gradient (R163). -/
def isSplineIn (t : ETy) : Bool := t == .bf16 || t == .f16

/-- The format checks of R135 on a descriptor, C elements to a vector. -/
def descBad (d : BitVec 128) (ok : ETy → Bool) (c cmax vmax : Nat) : Bool :=
  let t := dType d
  let w := dWidth d
  decide (dfl d 43 1 ≠ 0) || decide (dfl d 57 7 ≠ 0) || decide (dfl d 81 15 ≠ 0) || decide (dfl d 16 4 ≠ 0) ||
    (dFmt d).isNone || !ok t || decide (c = 0) || decide (cmax < c) || decide (vmax < dVecs d) ||
    decide (2048 < 8 * dfl d 16 8 + (if dByCol d then dVecs d else c) * w) || (dByCol d && w == 6) ||
    (dSen d && (t == .f32 || t == .bf16 || t == .f16 || t == .i8))

/-- The first of the rows, as the list names them, that lies outside the extent; of several, R135 does not say whose address
SR_EADDR takes (DESIGN CHOICE, log 61). -/
def State.rowListFault (s : State) (l : List Nat) : Option TrapInfo :=
  (l.find? fun r => decide (s.extent s.myCore ≤ 256 * r)).map fun r => { code := 9, eaddr := word (256 * r) }

/-- The rows that a descriptor names, n elements to a vector: its tile rows, then the scale row. -/
def descRows (d : BitVec 128) (n : Nat) : List Nat :=
  (List.range (if dByCol d then n else dVecs d)).map (dRowNo d) ++ (if dSen d then [dfl d 64 16] else [])

/-- The checks of R135 on an input descriptor: the operand-format fault before the range fault, which R135 does not order
(DESIGN CHOICE, log 61). -/
def State.descFault (s : State) (d : BitVec 128) (ok : ETy → Bool) (cmax vmax : Nat) : Option TrapInfo :=
  if descBad d ok (dCols d) cmax vmax then some { code := 10 } else s.rowListFault (descRows d (dElems d))

/-! ## Operand fetch (R134) -/

/-- The bank XOR swizzle of tile row i; it is its own inverse. -/
def swizzle (i : Nat) (r : Row) : Row := packRow 128 ((List.range 16).map fun l => elem 128 r (Nat.xor l (i % 16)))
/-- The swizzle of a byte mask. -/
def swizzleMask (i : Nat) (m : Row256) : Row256 :=
  BitVec.ofNat 256 ((List.range 16).foldr (fun l a => bits m.toNat (16 * Nat.xor l (i % 16)) 16 + 65536 * a) 0)

/-- Tile row i of a descriptor as a logical row. -/
def State.tileRow (s : State) (n : CoreNo) (d : BitVec 128) (i : Nat) : Nat :=
  let r := s.row n (dRowNo d i)
  (if dSwz d then swizzle i r else r).toNat

/-- The elements of vector j, whose tile row is idx j in row fetch. -/
def State.vecElems (s : State) (n : CoreNo) (d : BitVec 128) (idx : Nat → Nat) (j : Nat) : List Nat :=
  let w := dWidth d
  let off := 8 * dfl d 16 8
  if dByCol d then (List.range (dElems d)).map fun k => bits (s.tileRow n d k) (off + j * w) w
  else
    let r := s.tileRow n d (idx j)
    (List.range (dElems d)).map fun k => bits r (off + k * w) w

/-- The bank lines of n bytes from byte lo of tile row i, as (row, first byte, end). -/
def dLines (d : BitVec 128) (i lo n : Nat) : List (Nat × Nat × Nat) :=
  (List.range 16).filterMap fun l =>
    if 16 * l < lo + n ∧ lo < 16 * l + 16 then
      let p := if dSwz d then Nat.xor l (i % 16) else l
      some (dRowNo d i, 16 * p, 16 * p + 16)
    else none

/-- The bank lines that fetching V vectors of a descriptor reads, with its scales. -/
def dReads (d : BitVec 128) (idx : Nat → Nat) : List (Nat × Nat × Nat) :=
  let off := dfl d 16 8
  let w := dWidth d
  (if dByCol d then (List.range (dElems d)).flatMap fun k => dLines d k off (ceilDiv (dVecs d * w) 8)
   else (List.range (dVecs d)).flatMap fun j => dLines d (idx j) off (ceilDiv (dElems d * w) 8)) ++
    (if dSen d then [(dfl d 64 16, 0, 256)] else [])

/-- Byte b of the scale row, or 0x7F (R60, R133). -/
def State.scaleByte (s : State) (n : CoreNo) (d : BitVec 128) (b : Nat) : Nat :=
  if dSen d then elem 8 (s.row n (dfl d 64 16)) b else 127

/-! ## Values with flags -/

/-- A value and the flags that making it has set. -/
abbrev FV := FVal × Nat

/-- The exact sum of values (R62). -/
def sumF : List FVal → FV
  | [] => (.fin false 0 0, 0)
  | a :: r => r.foldl (fun acc x => ((fvAdd acc.1 x).1, (fvAdd acc.1 x).2 ||| acc.2)) (a, 0)

/-- An E8M0 scale as a value (R60). -/
def scaleVal (x : Nat) : FVal := if x = 255 then .nan else .fin false 1 ((x : Int) - 127)

/-- An element of the array as a value (R75). -/
def elemVal (t : ETy) (x : Nat) : FVal := if t = .i8 then fvOfInt (toI 8 x) 0 else t.fmt.decode x

/-- T of a block: its products summed exactly and scaled (R75, R76). -/
def blockTerm (l : List (FVal × FVal)) (xa xb : FVal) : FV :=
  if l.any (fun e => e.1 == .nan || e.2 == .nan) || xa == .nan || xb == .nan then (.nan, fINV)
  else
    let p := l.map fun e => fvMul e.1 e.2
    if p.any (fun x => x.1 == .nan) then (.nan, fINV)
    else
      let s := sumF (p.map (·.1))
      ((fvMul (fvMul s.1 xa).1 xb).1, s.2)

/-- RNE32(t + T) and its flags (R75). -/
def addTerm (t : Nat × Nat) (T : FV) : Nat × Nat :=
  let r := fmt32.finish (fvAdd (fmt32.decode t.1) T.1)
  (r.1, r.2 ||| T.2 ||| t.2)

/-! ## Weights (R138 to R140) -/

/-- A plane of an array. -/
def ArrayState.plane (a : ArrayState) (p : Nat) : Plane := tget {} p a.planes
/-- A plane changed. -/
def ArrayState.mapPlane (a : ArrayState) (p : Nat) (f : Plane → Plane) : ArrayState :=
  { a with planes := tput {} p (f (a.plane p)) a.planes }
/-- W(k, n) of a set as a value. -/
def WeightSet.w (x : WeightSet) (k n : Nat) : FVal := elemVal x.fmt (tget 0 (32 * k + n) x.cells)
/-- XW(n, b) of a set. -/
def WeightSet.scale (x : WeightSet) (n b : Nat) : FVal := scaleVal (tget 127 (n + 32 * b) x.xw)

/-- The weights of a vector of elements: those of LQ2 decoded to BF16 (R74, R138). -/
def weightsOf (t : ETy) (cb : Tab Nat) (cols : Nat) (l : List Nat) : List Nat :=
  if t = .lq2 then (List.range cols).map fun k =>
    let q := l.getD (k / 8) 0
    ((ETy.fmt .bf16).rne (fvOfInt (lq2Quarters (tget 0 (q / 256) cb) q (k % 8)) (-2))).1
  else l

/-- MLOADW's effect on the array; p is the shadow plane (R138, R139). -/
def State.loadW (s : State) (n : CoreNo) (set : BitVec 4) (sp : Bool) (o : MatOp) (p : Nat) : State :=
  let d := o.da
  let cols := (List.range (dVecs d)).map fun j =>
    weightsOf (dType d) (s.arr n).codebook (dCols d) (s.vecElems n d id j)
  let cells := tcells 0 0 ((List.range 1024).map fun i => (cols.getD (i % 32) []).getD (i / 32) 0)
  let xw := tcells 127 0 ((List.range (if sp then 64 else 32)).map (s.scaleByte n d))
  let x : WeightSet := { fmt := dType d, sparse := sp, cells := cells, xw := xw, sw := dfl d 96 32,
                         groups := if sp then s.row n (o.xs.toNat / 256) else 0 }
  s.mapArr n fun a => a.mapPlane p fun pl =>
    { spline := false, slots := [], sets := tput {} set.toNat x (if pl.spline then [] else pl.sets) }

/-- MCBOOK's effect: four rows of 64 entries (R140). -/
def State.loadCodebook (s : State) (n : CoreNo) (row : Nat) : State :=
  s.mapArr n fun a => { a with codebook := tcells 0 0 ((List.range 256).map fun e =>
    elem 32 (s.row n (row + e / 64)) (e % 64)) }

/-! ## Multiplying (R142, R143) -/

/-- The logical position of cell k of column n of a sparse set (R139). -/
def WeightSet.pos (x : WeightSet) (k n : Nat) : Nat :=
  4 * (k / 2) + bits (elem 64 x.groups n) (4 * (k / 2) + 2 * (k % 2)) 2

/-- The pairs of factors of K-block b of column n (R75, R139). -/
def WeightSet.pairs (x : WeightSet) (av : List FVal) (n b : Nat) : List (FVal × FVal) :=
  let zero : FVal := .fin false 0 0
  if x.sparse then
    let ks := (List.range 16).map (16 * b + ·)
    (ks.map fun k => (av.getD (x.pos k n) zero, x.w k n)) ++
      ((List.range 32).map (32 * b + ·)).filterMap fun l =>
        if ks.any (fun k => x.pos k n == l) then none else some (av.getD l zero, zero)
  else (List.range 32).map fun k => (av.getD k zero, x.w k n)

/-- t(r, i) after one vector (R142): column i in the direction FWD, row i in REV. -/
def WeightSet.update (x : WeightSet) (rev : Bool) (av : List FVal) (xa : Nat → Nat) (i t : Nat) : Nat × Nat :=
  if rev then
    addTerm (t, 0) (blockTerm ((List.range 32).map fun n =>
      (av.getD n (.fin false 0 0), (fvMul (x.w i n) (x.scale n 0)).1)) (scaleVal (xa 0)) (scaleVal 127))
  else
    (List.range (if x.sparse then 2 else 1)).foldl (fun t b =>
      addTerm t (blockTerm (x.pairs av i b) (scaleVal (xa b)) (x.scale i b))) (t, 0)

/-- A tile of an array. -/
def ArrayState.tile (a : ArrayState) (t : BitVec 2) : Tile := tget {} t.toNat a.tiles
/-- A tile changed. -/
def ArrayState.mapTile (a : ArrayState) (t : BitVec 2) (f : Tile → Tile) : ArrayState :=
  { a with tiles := tput {} t.toNat (f (a.tile t)) a.tiles }
/-- Row r of a tile. -/
def Tile.row (x : Tile) (r : Nat) : List Nat := tgetN 0 (32 * r) 32 x.t
/-- Row r of a tile set, with its tensor scales where given. -/
def Tile.setRow (x : Tile) (r : Nat) (l : List Nat) (scales : Option (Nat × Nat)) : Tile :=
  match scales with
  | some (a, b) => { t := tputN 0 (32 * r) l x.t, sa := tput one32 r a x.sa, sb := tput one32 r b x.sb }
  | none => { x with t := tputN 0 (32 * r) l x.t }

/-- The effect of MMUL and MMULG; p is the active plane (R142, R143). -/
def State.multiply (s : State) (n : CoreNo) (o : MatOp) (p : Nat) (at_ : BitVec 2) (set : BitVec 4) (rev acc : Bool)
    (row0 : Nat) (idx : Nat → Nat) : State :=
  let d := o.da
  let x := tget {} set.toNat ((s.arr n).plane p).sets
  let r := (List.range (dVecs d)).foldl (fun (a : Tile × Nat) j =>
    let av := (s.vecElems n d idx j).map (elemVal (dType d))
    let old := if acc then a.1.row (row0 + j) else List.replicate 32 0
    let res := old.zipIdx.map fun e => x.update rev av (fun b => s.scaleByte n d (2 * j + b)) e.2 e.1
    (a.1.setRow (row0 + j) (res.map (·.1)) (if acc then none else some (dfl d 96 32, x.sw)),
      res.foldl (fun f e => f ||| e.2) a.2)) ((s.arr n).tile at_, 0)
  (s.mapArr n fun a => a.mapTile at_ fun _ => r.1).setMFlags o.key r.2

/-- The checks of MMUL and MMULG at their start (R144). -/
def ArrayState.mulStart (a : ArrayState) (d : BitVec 128) (set : BitVec 4) (rev : Bool) : Option Nat :=
  let pl := a.plane a.act
  let x := tget {} set.toNat pl.sets
  if pl.spline || (decide (32 < dCols d) && !x.sparse) || (rev && x.sparse) then some 10 else none

/-! ## Draining (R146, R147) -/

/-- Row r of a tile under its tensor scales, in FP32 (R146). -/
def Tile.scaled (x : Tile) (r : Nat) : List (Nat × Nat) :=
  let s := fmt32.mul (tget one32 r x.sa) (tget one32 r x.sb)
  (x.row r).map fun t => ((fmt32.mul s.1 t).1, (fmt32.mul s.1 t).2 ||| s.2)

/-- A tile with a drained row cleared (R146). -/
def Tile.clearRow (x : Tile) (r : Nat) : Tile := x.setRow r (List.replicate 32 0) (some (one32, one32))

/-- The draw of element i of an operation (R70, R146). -/
def MatOp.draw (o : MatOp) (i : Nat) : Nat := drawHigh (Sys2Proof.Machine.draw o.seed (o.ctr + word i))

/-- A drained row converted (R146). -/
def convRow (o : MatOp) (t : ETy) (rnd : Rnd) (j : Nat) (l : List (Nat × Nat)) : List (Nat × Nat) :=
  l.zipIdx.map fun e =>
    let r := t.fmt.cvt rnd (o.draw (32 * j + e.2)) (fmt32.decode e.1.1)
    (r.1, r.2 ||| e.1.2)

/-- Bytes of n elements of width w written to tile row i of a descriptor (R134, R146). -/
def State.writeTileRow (s : State) (n : CoreNo) (d : BitVec 128) (i : Nat) (l : List Nat) : State :=
  let w := dWidth d
  let off := dfl d 16 8
  let m := byteRange off (l.length * w / 8)
  let v : Row := BitVec.ofNat 2048 ((packRow w l).toNat * 256 ^ off)
  if dSwz d then s.writeRow n (dRowNo d i) (swizzleMask i m) (swizzle i v) else s.writeRow n (dRowNo d i) m v

/-- The rows of a drain converted, and for MDRAIN.q the records appended (R146, R147): in the binding that SL has at
completion, and with none there no record is appended and OUTOV is set (DESIGN CHOICE, log 54). -/
def State.drainRows (s : State) (n : CoreNo) (o : MatOp) (at_ : BitVec 2) (row0 : Nat) (rnd : Rnd) (q : Bool)
    (sl : SReg) : State × List (List Nat) × Nat :=
  let d := o.da
  let t := dType d
  (List.range (dVecs d)).foldl (fun acc j =>
    let (s, out, fl) := acc
    let ys := ((s.arr n).tile at_).scaled (row0 + j)
    let fl := ys.foldl (fun f e => f ||| e.2) fl
    if q then
      let eb := ((s.ctx o.key).stream sl).eb
      let r := s.quantize o.key sl t rnd (fun i => (eb + i) % 2 ^ 32)
        (ys.zipIdx.map fun e => (e.2, true, s.scaleByte n d j, fmt32.decode e.1.1, o.draw (32 * j + e.2), 0))
      (r.1.mapCtx o.key fun c =>
        let x := c.stream sl
        c.setStream sl { x with eb := (x.eb + 32) % 2 ^ 32 }, out ++ [r.2.1], fl ||| r.2.2)
    else
      let r := convRow o t rnd j ys
      (s, out ++ [r.map (·.1)], r.foldl (fun f e => f ||| e.2) fl)) (s, [], 0)

/-- Tile rows cleared after a drain. -/
def State.clearRows (s : State) (n : CoreNo) (at_ : BitVec 2) (row0 cnt : Nat) : State :=
  s.mapArr n fun a => a.mapTile at_ fun x => (List.range cnt).foldl (fun x j => x.clearRow (row0 + j)) x

/-- The effect of MDRAIN to rows (R146, R147). -/
def State.drain (s : State) (n : CoreNo) (o : MatOp) (at_ : BitVec 2) (row0 : Nat) (rnd : Rnd) (clr q : Bool)
    (sl : SReg) : State :=
  let d := o.da
  let (s, out, fl) := s.drainRows n o at_ row0 rnd q sl
  let s := if dByCol d then
      (List.range 32).foldl (fun s i => s.writeTileRow n d i (out.map fun l => l.getD i 0)) s
    else out.zipIdx.foldl (fun s e => s.writeTileRow n d e.2 e.1) s
  let s := if clr then s.clearRows n at_ row0 (dVecs d) else s
  s.setMFlags o.key fl

/-- The effect of MDRAIN to a vector register (R146). -/
def State.drainV (s : State) (n : CoreNo) (o : MatOp) (at_ : BitVec 2) (vd : VReg) (row0 : Nat) (rnd : Rnd) (t : ETy)
    (clr : Bool) : State :=
  let r := convRow o t rnd 0 (((s.arr n).tile at_).scaled row0)
  let s := if clr then s.clearRows n at_ row0 1 else s
  (s.mapCtx o.key fun c => c.deliverV vd fun _ => packRow t.width (r.map (·.1))).setMFlags o.key
    (r.foldl (fun f e => f ||| e.2) 0)

/-- The checks of MDRAIN to rows at issue (R135, R146, R147); a bad descriptor DO goes before a list SL that is none, and so does
a row outside the extent (DESIGN CHOICE, log 54). -/
def State.drainFault (s : State) (d : BitVec 128) (row0 : Nat) (q : Bool) (sl : SReg) : Option TrapInfo :=
  if descBad d isOut 32 32 128 || decide (128 < row0 + dVecs d) ||
      (dByCol d && decide (dVecs d * dWidth d % 8 ≠ 0)) || (q && !((dType d).isNarrow && dSen d)) then
    some { code := 10 }
  else ((s.rowListFault (descRows d 32))).or (if q then s.listFault sl else none)

/-! ## Status (R152) -/

/-- The status word of the array; `st` and the operation that reads it are left out of BUSY. -/
def ArrayState.status (a : ArrayState) (id : Nat) : Word :=
  let busy := (List.range 4).foldl (fun b i =>
    b + (if (tget [] i a.queues).any (fun o => o.id != id) then 2 ^ (4 + i) else 0)) 0
  let held := (List.range 4).foldl (fun b i =>
    b + (if (tget [] i a.queues).any (fun o => o.held) then 2 ^ (8 + i) else 0)) 0
  word (a.act + busy + held + 65536 * b2n (a.plane a.act).spline + 131072 * b2n (a.plane (1 - a.act)).spline)

/-- The effect of MSTAT. -/
def State.matStatus (s : State) (n : CoreNo) (o : MatOp) (xd : XReg) (sel : BitVec 2) (clr : Bool) : State :=
  let a := s.arr n
  let v := if sel = 3 then a.status o.id else word (tget 0 sel.toNat a.counters)
  let s := if clr then s.mapArr n fun a => { a with counters := tput 0 sel.toNat 0 a.counters } else s
  s.mapCtx o.key fun c => c.deliverX xd v

/-! ## The instructions -/

/-- MLOADW: loads a set of the shadow plane (R138). -/
def semMloadw (st : BitVec 2) (set : BitVec 4) (dw : BitVec 3) (sp : Bool) (xm : XReg) : Sem :=
  matSem st (fun s =>
      (s.descFault (s.desc dw) (fun t => isWeight t && !(sp && t == .lq2)) 32 32).or
        (if sp then s.rowsFault s.myCore ((s.rx xm).toNat / 256) 1 else none))
    fun s => { s.matOp (.mloadw st set dw sp xm) with da := s.desc dw, xs := s.rx xm }
/-- MLOADW. -/
def execMloadw (st : BitVec 2) (set : BitVec 4) (dw : BitVec 3) (sp : Bool) (xm : XReg) (s : State) :
    Outcome State Fault Refusal := (semMloadw st set dw sp xm).run s

/-- MSWAP: exchanges the planes (R141). -/
def semMswap (st : BitVec 2) : Sem := matSem st (fun _ => none) fun s => s.matOp (.mswap st)
/-- MSWAP. -/
def execMswap (st : BitVec 2) (s : State) : Outcome State Fault Refusal := (semMswap st).run s

/-- MMUL: multiplies vectors by a set of the active plane (R142). -/
def semMmul (st at_ : BitVec 2) (set : BitVec 4) (da : BitVec 3) (rev acc : Bool) (row0 : BitVec 7) : Sem :=
  matSem st (fun s =>
      let d := s.desc da
      if 128 < row0.toNat + dVecs d then some { code := 10 } else s.descFault d isAct 64 128)
    fun s => { s.matOp (.mmul st at_ set da rev acc row0) with da := s.desc da }
/-- MMUL. -/
def execMmul (st at_ : BitVec 2) (set : BitVec 4) (da : BitVec 3) (rev acc : Bool) (row0 : BitVec 7) (s : State) :
    Outcome State Fault Refusal := (semMmul st at_ set da rev acc row0).run s

/-- The descriptor checks of MMULG at issue (R143). -/
def State.gatherDesc (d : BitVec 128) (row0 : Nat) : Option TrapInfo :=
  if dByCol d || decide (128 < row0 + dVecs d) || descBad d isAct (dCols d) 64 64 then some { code := 10 } else none

/-- The check of the rows that the lanes of `vi` name (R143). -/
def State.gatherFault (s : State) (d : BitVec 128) (vi : Row) : Option TrapInfo :=
  s.rowListFault ((List.range (dVecs d)).map (fun j => dRowNo d (elem 32 vi j)) ++
    (if dSen d then [dfl d 64 16] else []))

/-- MMULG: MMUL on the rows that an index vector names (R143). A stream head that is not filled blocks, and its rows are
checked once it is (R103, R191). A protocol fault of the head VI goes before a bad descriptor DA (DESIGN CHOICE, log 61). -/
def semMmulg (st at_ : BitVec 2) (set : BitVec 4) (da : BitVec 3) (rev acc : Bool) (row0 : BitVec 7) (vi : VSrc) : Sem :=
  ({ fault := fun s => (((s.srcFault [vi]).or (State.gatherDesc (s.desc da) row0.toNat)).or (s.srcBad [vi])).or
       (if (s.srcBlock [vi]).isEmpty then s.gatherFault (s.desc da) (s.src vi) else none)
     block := fun s => s.srcBlock [vi] ++ s.matBlock st
     stall := fun s => s.matStall st
     eff := fun s => (s.consume [vi]).submit st
       { s.matOp (.mmulg st at_ set da rev acc row0 vi) with da := s.desc da, vi := s.src vi } } : Sem).onHeads [vi]
/-- MMULG. -/
def execMmulg (st at_ : BitVec 2) (set : BitVec 4) (da : BitVec 3) (rev acc : Bool) (row0 : BitVec 7) (vi : VSrc)
    (s : State) : Outcome State Fault Refusal := (semMmulg st at_ set da rev acc row0 vi).run s

/-- An operation of a drain takes its counter, and EIDX advances, at issue (R71, R146); SR_RNDSEED is read at issue too
(DESIGN CHOICE, log 54). -/
def State.submitDrain (s : State) (st : BitVec 2) (o : MatOp) (rnd : Rnd) (n : Nat) : State :=
  let c := s.me
  (s.submit st { o with seed := c.stat.rndseed, ctr := c.stat.rndctr }).mapMe fun c =>
    if rnd = .sr then c.advance n else c

/-- MDRAIN to rows (R146, R147). -/
def semMdrain (st at_ : BitVec 2) (dO : BitVec 3) (row0 : BitVec 7) (rnd : Rnd) (clr q : Bool) (sl : SReg) : Sem :=
  { fault := fun s => s.drainFault (s.desc dO) row0.toNat q sl
    block := fun s => s.matBlock st
    stall := fun s => s.matStall st
    eff := fun s => s.submitDrain st { s.matOp (.mdrain st at_ dO row0 rnd clr q sl) with da := s.desc dO } rnd
      (32 * dVecs (s.desc dO)) }
/-- MDRAIN. -/
def execMdrain (st at_ : BitVec 2) (dO : BitVec 3) (row0 : BitVec 7) (rnd : Rnd) (clr q : Bool) (sl : SReg) (s : State) :
    Outcome State Fault Refusal := (semMdrain st at_ dO row0 rnd clr q sl).run s

/-- MDRAIN to a vector register (R146; DEDUCED, log 24). -/
def semMdrainV (st at_ : BitVec 2) (vd : VReg) (row0 : BitVec 7) (rnd : Rnd) (t : ETy) (clr : Bool) : Sem :=
  { fault := fun _ => if isOut t then none else some { code := 10 }
    block := fun s => s.matBlock st
    stall := fun s => s.matStall st
    eff := fun s => (s.submitDrain st (s.matOp (.mdrainV st at_ vd row0 rnd t clr)) rnd 32).awaitV vd }
/-- MDRAIN.v. -/
def execMdrainV (st at_ : BitVec 2) (vd : VReg) (row0 : BitVec 7) (rnd : Rnd) (t : ETy) (clr : Bool) (s : State) :
    Outcome State Fault Refusal := (semMdrainV st at_ vd row0 rnd t clr).run s

/-- MZERO: clears a tile (R148). -/
def semMzero (st at_ : BitVec 2) : Sem := matSem st (fun _ => none) fun s => s.matOp (.mzero st at_)
/-- MZERO. -/
def execMzero (st at_ : BitVec 2) (s : State) : Outcome State Fault Refusal := (semMzero st at_).run s

/-- MCBOOK: loads the codebook (R140). -/
def semMcbook (st : BitVec 2) (xs : XReg) : Sem :=
  matSem st (fun s => s.rowsFault s.myCore ((s.rx xs).toNat / 256) 4)
    fun s => { s.matOp (.mcbook st xs) with xs := s.rx xs }
/-- MCBOOK. -/
def execMcbook (st : BitVec 2) (xs : XReg) (s : State) : Outcome State Fault Refusal := (semMcbook st xs).run s

/-- MDSET: writes a descriptor (R149). -/
def semMdset (dn : BitVec 3) (xlo xhi : XReg) : Sem :=
  { eff := fun s => s.mapMe fun c =>
      { c with d := tput 0 dn.toNat (BitVec.ofNat 128 ((s.rx xhi).toNat * 2 ^ 64 + (s.rx xlo).toNat)) c.d } }
/-- MDSET. -/
def execMdset (dn : BitVec 3) (xlo xhi : XReg) (s : State) : Outcome State Fault Refusal := (semMdset dn xlo xhi).run s

/-- The four streams. -/
def streams4 : List (BitVec 2) := [0, 1, 2, 3]

/-- MFENCE: one entry in each queue (R150). The four entries bear one number. -/
def semMfence : Sem :=
  { block := fun s => streams4.flatMap fun st => s.matBlock st
    stall := fun s => streams4.findSome? fun st => s.matStall st
    eff := fun s => s.mapArr s.myCore fun a =>
      let o := { s.matOp .mfence with id := a.issued }
      { streams4.foldl (fun a st => a.setQueue st (a.queue st ++ [o])) a with issued := a.issued + 1 } }
/-- MFENCE. -/
def execMfence (s : State) : Outcome State Fault Refusal := semMfence.run s

/-- MWAIT: blocks until the stream is empty (R151). -/
def semMwait (st : BitVec 2) : Sem :=
  { block := fun s => if ((s.arr s.myCore).queue st).isEmpty then [] else [.matrixStream st], eff := fun s => s }
/-- MWAIT. -/
def execMwait (st : BitVec 2) (s : State) : Outcome State Fault Refusal := (semMwait st).run s

/-- MSTAT: reads a counter or the status word in the stream's order (R152). -/
def semMstat (st : BitVec 2) (xd : XReg) (sl : BitVec 2) (clr : Bool) : Sem :=
  { block := fun s => s.matBlock st
    stall := fun s => s.matStall st
    eff := fun s => (s.submit st (s.matOp (.mstat st xd sl clr))).awaitX xd }
/-- MSTAT. -/
def execMstat (st : BitVec 2) (xd : XReg) (sl : BitVec 2) (clr : Bool) (s : State) : Outcome State Fault Refusal :=
  (semMstat st xd sl clr).run s

end Sys2Proof.Machine
end

