-- ==== Sys2Proof/Machine/Spline.lean ====
section
/-! DEFINITION. Spline mode (R153 to R171), and the start and completion of the array's operations (R131, R144, R164). -/

namespace Sys2Proof.Machine

open Host (Outcome)

/-! ## Rounded steps on exact values -/

/-- A value without flags. -/
def kv (v : FVal) : FV := (v, 0)
/-- n x 2^e without flags. -/
def ki (n e : Int) : FV := (fvOfInt n e, 0)
/-- An exact sum, with every flag. -/
def sumV (l : List FV) : FV :=
  let r := sumF (l.map (·.1))
  (r.1, l.foldl (fun f x => f ||| x.2) r.2)
/-- An exact product. -/
def mulV (a b : FV) : FV := ((fvMul a.1 b.1).1, (fvMul a.1 b.1).2 ||| a.2 ||| b.2)
/-- The negative. -/
def negV (a : FV) : FV := (fvNeg a.1, a.2)
/-- RNE32. -/
def rndV (a : FV) : FV := (fmt32.decode (fmt32.rne a.1).1, (fmt32.rne a.1).2 ||| a.2)
/-- RNE32 of a quotient. -/
def divV (a b : FV) : FV := (fmt32.decode (fmt32.divV a.1 b.1).1, (fmt32.divV a.1 b.1).2 ||| a.2 ||| b.2)
/-- The FP32 code of a rounded value. -/
def codeV (a : FV) : Nat := (fmt32.rne a.1).1

/-! ## The grid (R153 to R155) -/

/-- The grid as KNCTL and the knot registers give it (R153). -/
structure Grid where
  p : Nat
  g : Nat
  uni : Bool
  ogm : Nat
  base : Nat
  invh : FVal
  kn : List FVal

/-- The grid of KNCTL and 13 knots. -/
def gridOf (knctl : Nat) (kn : List Nat) : Grid :=
  { p := bits knctl 0 2, g := bits knctl 2 4, uni := bits knctl 6 1 == 1, ogm := bits knctl 8 2,
    base := bits knctl 10 2, invh := fmt32.decode (bits knctl 32 32), kn := kn.map fmt32.decode }

/-- Knot i of the grid, with its extended knots (R155); deriving these sets no flag (DESIGN CHOICE, log 54). -/
def Grid.t (x : Grid) (i : Int) : FVal :=
  let at_ := fun (j : Nat) => x.kn.getD j (.fin false 0 0)
  if i < 0 then
    (rndV (sumV [kv (at_ 0), mulV (ki i 0) (sumV [kv (at_ 1), negV (kv (at_ 0))])])).1
  else if (x.g : Int) < i then
    (rndV (sumV [kv (at_ x.g), mulV (ki (i - x.g) 0) (sumV [kv (at_ x.g), negV (kv (at_ (x.g - 1)))])])).1
  else at_ i.toNat

/-- Whether a value is finite. -/
def isFin : FVal → Bool
  | .fin _ _ _ => true
  | _ => false

/-- The length of interval i, exactly. -/
def Grid.len (x : Grid) (i : Nat) : FVal := (sumV [kv (x.t (i + 1)), negV (kv (x.t i))]).1

/-- KNCTL and the knots of a grid row (R154). -/
def rowGrid (r : Row) : Grid := gridOf (elem 64 r 7) ((List.range 13).map (elem 32 r))

/-- Whether MKNOT accepts a grid row (R154). -/
def gridOk (r : Row) : Bool :=
  let c := elem 64 r 7
  let x := rowGrid r
  (x.p == 1 || x.p == 3) && decide (1 ≤ x.g) && decide (x.g ≤ 12) && x.ogm != 3 && x.base != 3 &&
    bits c 7 1 == 0 && bits c 12 20 == 0 && elem 32 r 13 == 0 &&
    (List.range (x.g + 1)).all (fun i => isFin (x.t i)) &&
    (List.range x.g).all (fun i => fvLt false (x.t i) (x.t (i + 1))) &&
    [1, 2, 3].all (fun (m : Nat) => isFin (x.t (-(m : Int))) && isFin (x.t (x.g + m))) &&
    (!x.uni || ((List.range x.g).all (fun i => fvEq (x.len i) (x.len 0)) &&
      (fmt32.divV (.fin false 1 0) (x.len 0)).1 == bits c 32 32))

/-- The grid of an array. -/
def ArrayState.grid (a : ArrayState) : Grid := gridOf a.knctl.toNat (tgetN 0 0 13 a.kn)

/-! ## The row basis unit (R157 to R160) -/

/-- What BASIS returns: the class (0 IN, 1 LOW, 2 HIGH, 3 NaN), the interval, and the terms that are present. -/
structure Basis where
  cls : Nat
  j : Nat
  terms : Option (List FV)
  base : Option FV

/-- The class and the interval of an input (R157). -/
def Grid.classify (x : Grid) (v : FVal) : Nat × Nat :=
  if v = .nan then (3, 0)
  else if fvLt false v (x.t 0) then (1, 0)
  else if !fvLt false v (x.t x.g) then (2, x.g - 1)
  else (0, ((List.range x.g).filter fun (i : Nat) => !fvLt false v (x.t i)).foldl Nat.max 0)

/-- u of R158; where it is NaN, min leaves it so (DESIGN CHOICE, log 54). -/
def Grid.u (x : Grid) (cls j : Nat) (xe : FVal) : FV :=
  if cls = 2 ∧ x.ogm = 0 then ki 1 0
  else
    let u := rndV (mulV (sumV [kv xe, negV (kv (x.t j))]) (kv x.invh))
    if cls = 0 ∧ fvLt false (.fin false 1 0) u.1 then (.fin false 1 0, u.2) else u

/-- b(0..p) of a uniform grid (R158). -/
def uniB (p : Nat) (u : FV) : List FV :=
  let v := rndV (sumV [ki 1 0, negV u])
  if p = 1 then [v, u]
  else
    let u2 := rndV (mulV u u)
    let u3 := rndV (mulV u2 u)
    let v2 := rndV (mulV v v)
    let v3 := rndV (mulV v2 v)
    [divV v3 (ki 6 0), divV (sumV [mulV (ki 3 0) u3, mulV (ki (-6) 0) u2, ki 4 0]) (ki 6 0),
     divV (sumV [mulV (ki (-3) 0) u3, mulV (ki 3 0) u2, mulV (ki 3 0) u, ki 1 0]) (ki 6 0), divV u3 (ki 6 0)]

/-- d(0..p) of a uniform grid (R158). -/
def uniD (p : Nat) (u : FV) (invh : FVal) : List FV :=
  if p = 1 then [rndV (negV (kv invh)), kv invh]
  else
    let v := rndV (sumV [ki 1 0, negV u])
    let u2 := rndV (mulV u u)
    let v2 := rndV (mulV v v)
    let q := [rndV (mulV (ki (-1) (-1)) v2), rndV (sumV [mulV (ki 3 (-1)) u2, mulV (ki (-2) 0) u]),
              rndV (sumV [mulV (ki (-3) (-1)) u2, u, ki 1 (-1)]), rndV (mulV (ki 1 (-1)) u2)]
    q.map fun a => rndV (mulV a (kv invh))

/-- One level q of the de Boor-Cox recursion (R159). -/
def Grid.boorStep (x : Grid) (xe : FVal) (j q : Nat) (N : List FV) : List FV :=
  let l := fun (a : Nat) => rndV (sumV [kv xe, negV (kv (x.t ((j : Int) + 1 - a)))])
  let rt := fun (a : Nat) => rndV (sumV [kv (x.t ((j : Int) + a)), negV (kv xe)])
  let res := N.zipIdx.foldl (fun (acc : List FV × FV) e =>
    let r : Nat := e.2
    let den := rndV (sumV [kv (x.t ((j + r + 1 : Nat) : Int)), negV (kv (x.t (((j + r + 1 : Nat) : Int) - (q : Int))))])
    let tmp := divV e.1 den
    (acc.1 ++ [rndV (sumV [acc.2, rndV (mulV (rt (r + (1 : Nat))) tmp)])], rndV (mulV (l (q - r)) tmp)))
    ([], ki 0 0)
  res.1 ++ [res.2]

/-- N after levels 1 to n (R159). -/
def Grid.boor (x : Grid) (xe : FVal) (j : Nat) : Nat → List FV
  | 0 => [ki 1 0]
  | n + 1 => x.boorStep xe j (n + 1) (x.boor xe j n)

/-- d(0..p) of a non-uniform grid (R160). -/
def Grid.boorD (x : Grid) (xe : FVal) (j : Nat) : List FV :=
  let nm := x.boor xe j (x.p - 1)
  (List.range (x.p + 1)).map fun (m : Nat) =>
    let i : Int := (j : Int) - (x.p : Int) + (m : Int)
    let part := fun (r : Nat) (hi lo : Int) =>
      divV (mulV (ki x.p 0) (nm.getD r (ki 0 0))) (rndV (sumV [kv (x.t hi), negV (kv (x.t lo))]))
    let a := if 1 ≤ m then part (m - 1) (i + x.p) i else ki 0 0
    let b := if m + 1 ≤ x.p then part m (i + x.p + 1) (i + 1) else ki 0 0
    rndV (sumV [a, negV b])

/-- BASIS(x): the values b, or with `deriv` the values d (R157). -/
def Grid.basis (x : Grid) (deriv : Bool) (v : FVal) : Basis :=
  let (cls, j) := x.classify v
  let pos := fvLt false (.fin false 0 0) v
  let one : FV := ki 1 0
  let zero : FV := ki 0 0
  let base : Option FV :=
    if x.base = 0 then none
    else if cls = 3 then some (kv .nan)
    else if x.base = 1 then some (if deriv then one else kv v)
    else some (if pos then (if deriv then one else kv v) else zero)
  let n := x.p + 1
  let terms : Option (List FV) :=
    if cls = 3 then some (List.replicate n (kv .nan))
    else if cls ≠ 0 ∧ x.ogm = 2 then none
    else if cls ≠ 0 ∧ x.ogm = 0 ∧ deriv then some (List.replicate n zero)
    else
      let xe := if cls ≠ 0 ∧ x.ogm = 0 then (if cls = 1 then x.t 0 else x.t x.g) else v
      some (match x.uni, deriv with
        | true, false => uniB x.p (x.u cls j xe)
        | true, true => uniD x.p (x.u cls j xe) x.invh
        | false, false => x.boor xe j x.p
        | false, true => x.boorD xe j)
  { cls := cls, j := j, terms := terms, base := base }

/-! ## The operations (R165 to R170) -/

/-- Slot s of cell (k, n) as a value (R156). -/
def Plane.slot (x : Plane) (k n s : Nat) : FVal := (ETy.fmt .bf16).decode (tget 0 (16 * (32 * k + n) + s) x.slots)

/-- The factors of a cell's sum; the terms that are absent are left out (R167, R168). -/
def Plane.factors (x : Plane) (k n : Nat) (b : Basis) : List (FV × FV) :=
  ((b.terms.getD []).zipIdx.map fun e => (kv (x.slot k n (b.j + e.2)), e.1)) ++
    (b.base.toList.map fun v => (kv (x.slot k n 15), v))

/-- The cell's sum, rounded once (R168). With a NaN term and infinite products of both signs, INV is set where the infinities
meet before the NaN in the order of the terms, which R168 leaves open (DESIGN CHOICE, log 54). -/
def Plane.sum (x : Plane) (k n : Nat) (b : Basis) : FV := rndV (sumV ((x.factors k n b).map fun e => mulV e.1 e.2))

/-- The cell's sum under R76: a NaN among its factors sets INV (R167). -/
def Plane.cell (x : Plane) (k n : Nat) (b : Basis) : FV :=
  let r := x.sum k n b
  if (x.factors k n b).any fun e => e.1.1 == .nan || e.2.1 == .nan then (r.1, r.2 ||| fINV) else r

/-- The inputs of vector j as values. -/
def State.splineVec (s : State) (n : CoreNo) (d : BitVec 128) (j : Nat) : List FVal :=
  (s.vecElems n d id j).map (dType d).fmt.decode

/-- The counters after inputs of the classes of a list (R161). -/
def countClasses (c : Tab Nat) (l : List Nat) : Tab Nat :=
  l.foldl (fun c cls => if cls = 0 then c else tmod 0 (cls - 1) (fun v => Nat.min (v + 1) (2 ^ 32 - 1)) c) c

/-- A result row with the flags of its values. -/
def rowFlags (l : List FV) (f : Nat) : Nat := l.foldl (fun f e => f ||| e.2) f

/-- The effect of MSPL; p is the active plane (R167, R161). -/
def State.spl (s : State) (n : CoreNo) (o : MatOp) (p : Nat) (at_ : BitVec 2) (acc : Bool) (row0 : Nat) : State :=
  let a := s.arr n
  let g := a.grid
  let pl := a.plane p
  let r := (List.range (dVecs o.da)).foldl (fun (x : Tile × List Nat × Nat) j =>
    let bs := (s.splineVec n o.da j).map (g.basis false)
    let old := if acc then x.1.row (row0 + j) else List.replicate 32 0
    let res := old.zipIdx.map fun e =>
      bs.zipIdx.foldl (fun col b => rndV (sumV [col, pl.cell b.2 e.2 b.1])) (kv (fmt32.decode e.1))
    (x.1.setRow (row0 + j) (res.map codeV) (if acc then none else some (one32, one32)),
      x.2.1 ++ bs.map (·.cls), rowFlags res x.2.2)) (a.tile at_, [], 0)
  (s.mapArr n fun a => { a.mapTile at_ (fun _ => r.1) with counters := countClasses a.counters r.2.1 }).setMFlags o.key
    (r.2.2 + if r.2.1.any (· != 0) then fOGRID else 0)

/-- The effect of MSPLB; p is the active plane (R168). -/
def State.splB (s : State) (n : CoreNo) (o : MatOp) (p : Nat) (at_ : BitVec 2) (acc : Bool) (row0 : Nat) : State :=
  let a := s.arr n
  let g := a.grid
  let pl := a.plane p
  let r := (List.range (dVecs o.da)).foldl (fun (x : Tile × Nat) j =>
    let bs := (s.splineVec n o.da j).map (g.basis true)
    let gs := s.splineVec n o.dg j
    let old := if acc then x.1.row (row0 + j) else List.replicate 32 0
    let res := old.zipIdx.map fun e =>
      match bs[e.2]? with
      | none => kv (fmt32.decode e.1)
      | some b => gs.zipIdx.foldl (fun col gn =>
          rndV (sumV [col, mulV (kv gn.1) (pl.sum e.2 gn.2 b)])) (kv (fmt32.decode e.1))
    (x.1.setRow (row0 + j) (res.map codeV) (if acc then none else some (one32, one32)), rowFlags res x.2))
    (a.tile at_, 0)
  (s.mapArr n fun a => a.mapTile at_ fun _ => r.1).setMFlags o.key r.2

/-- The factor that an input's basis gives slot q, if it takes part (R169). -/
def Basis.factor (b : Basis) (q : Nat) : Option FV :=
  if q = 15 then b.base
  else match b.terms with
    | none => none
    | some l => if b.j ≤ q then l[q - b.j]? else none

/-- The effect of MSPLG (R169). -/
def State.splG (s : State) (n : CoreNo) (o : MatOp) : State :=
  let a := s.arr n
  let g := a.grid
  let vs := (List.range (dVecs o.da)).map fun j => ((s.splineVec n o.da j).map (g.basis false), s.splineVec n o.dg j)
  let res : List FV := (List.range 16384).map fun i =>
    let k := i / 512
    let c := i / 16 % 32
    vs.foldl (fun v e =>
      match e.1[k]?, e.2[c]? with
      | some b, some gg =>
        (match b.factor (i % 16) with
         | some f => rndV (sumV [v, mulV (kv gg) f])
         | none => v)
      | _, _ => v) (kv (fmt32.decode (tget 0 i a.grad)))
  let old : List Nat := tgetN 0 0 16384 a.grad
  let codes := (res.zip old).map fun e => if e.1.1 = fmt32.decode e.2 then e.2 else codeV e.1
  (s.mapArr n fun a => { a with grad := tcells 0 0 codes }).setMFlags o.key (rowFlags res 0)

/-- A new coefficient of a refined cell and its flags; c are the old codes (R170). -/
def refineSlot (p g : Nat) (c : Nat → Nat) (s : Nat) : Nat × Nat :=
  let bf : Fmt := ETy.fmt .bf16
  let v := fun i => kv (bf.decode (c i))
  let rnd := fun (x : FV) => ((bf.rne x.1).1, (bf.rne x.1).2 ||| x.2)
  if 2 * g + p ≤ s then (c s, 0)
  else if p = 3 then
    let i := s / 2
    if s % 2 = 0 then rnd (mulV (ki 1 (-1)) (sumV [v i, v (i + 1)]))
    else rnd (mulV (ki 1 (-3)) (sumV [v i, mulV (ki 6 0) (v (i + 1)), v (i + 2)]))
  else if s % 2 = 0 then (c (s / 2), 0)
  else rnd (mulV (ki 1 (-1)) (sumV [v (s / 2), v (s / 2 + 1)]))

/-- A plane refined (R170). -/
def Plane.refine (x : Plane) (p g : Nat) : Plane × Nat :=
  let res := (List.range 16384).map fun i =>
    refineSlot p g (fun s => tget 0 (i / 16 * 16 + s) x.slots) (i % 16)
  ({ x with slots := tcells 0 0 (res.map (·.1)) }, res.foldl (fun f e => f ||| e.2) 0)

/-- Knot l of the refined grid, exactly (R170). -/
def Grid.refined (x : Grid) (l : Nat) : FVal := (sumV [kv (x.t 0), mulV (ki l (-1)) (kv (x.len 0))]).1

/-- The code of the fault of MREFINE at its start (R164); the operand format goes before the grid where both rows of its table
apply (DESIGN CHOICE, log 61). -/
def ArrayState.refineStart (a : ArrayState) : Option Nat :=
  let g := a.grid
  if !(a.plane a.act).spline || g.p == 0 then some 10
  else if !g.uni || decide (12 < 2 * g.g) ||
      (List.range (2 * g.g + 1)).any (fun l => (fmt32.rne (g.refined l)).2 != 0) ||
      !isFin (rndV (mulV (ki 2 0) (kv g.invh))).1 then some 11
  else none

/-- The effect of MREFINE; p is the active plane (R170). -/
def State.refine (s : State) (n : CoreNo) (o : MatOp) (p : Nat) : State :=
  let a := s.arr n
  let g := a.grid
  let r1 := (a.plane p).refine g.p g.g
  let other := a.plane (1 - p)
  let r2 := if other.spline then other.refine g.p g.g else (other, 0)
  let kn := tputN 0 0 ((List.range (2 * g.g + 1)).map fun l => (fmt32.rne (g.refined l)).1) a.kn
  let ctl := a.knctl.toNat
  let inv := codeV (mulV (ki 2 0) (kv g.invh))
  let ctl := ctl % 4 + 4 * (2 * g.g) + bits ctl 6 26 * 64 + 2 ^ 32 * inv
  (s.mapArr n fun a =>
    { (a.mapPlane p fun _ => r1.1).mapPlane (1 - p) (fun _ => r2.1) with kn := kn, knctl := word ctl }).setMFlags o.key
    (r1.2 ||| r2.2)

/-- Row i of an image of n codes of width w to a row. -/
def imageRow (w : Nat) (t : Tab Nat) (i : Nat) : Row := packRow w (tgetN 0 (2048 / w * i) (2048 / w) t)

/-- The effect of MGDRAIN; p is the active plane (R166). -/
def State.gdrain (s : State) (n : CoreNo) (src : GSrc) (row p : Nat) : State :=
  let a := s.arr n
  let put := fun (s : State) (cnt w : Nat) (t : Tab Nat) =>
    (List.range cnt).foldl (fun s i => s.writeRow n (row + i) fullMask (imageRow w t i)) s
  match src with
  | .g => put s 256 32 a.grad
  | .ca => put s 128 16 (a.plane p).slots
  | .cs => put s 128 16 (a.plane (1 - p)).slots
  | .kn => s.writeRow n row (byteRange 0 64)
      (packRow 32 (tgetN 0 0 13 a.kn ++ [0, bits a.knctl.toNat 0 32, bits a.knctl.toNat 32 32]))

/-- The rows that MGDRAIN writes. -/
def gsrcRows : GSrc → Nat
  | .g => 256 | .ca => 128 | .cs => 128 | .kn => 1

/-! ## The instructions (R162, R163) -/

/-- MKNOT: loads a grid (R165). -/
def semMknot (st : BitVec 2) (xs : XReg) : Sem :=
  matSem st (fun s => s.rowsFault s.myCore ((s.rx xs).toNat / 256) 1)
    fun s => { s.matOp (.mknot st xs) with xs := s.rx xs }
/-- MKNOT. -/
def execMknot (st : BitVec 2) (xs : XReg) (s : State) : Outcome State Fault Refusal := (semMknot st xs).run s

/-- MKNOT.c: loads coefficients into the shadow plane (R165). -/
def semMknotC (st : BitVec 2) (xs : XReg) : Sem :=
  matSem st (fun s => s.rowsFault s.myCore ((s.rx xs).toNat / 256) 128)
    fun s => { s.matOp (.mknotC st xs) with xs := s.rx xs }
/-- MKNOT.c. -/
def execMknotC (st : BitVec 2) (xs : XReg) (s : State) : Outcome State Fault Refusal := (semMknotC st xs).run s

/-- MSPL: evaluates the spline layer (R167). -/
def semMspl (st at_ : BitVec 2) (da : BitVec 3) (acc : Bool) (row0 : BitVec 7) : Sem :=
  matSem st (fun s =>
      let d := s.desc da
      if 128 < row0.toNat + dVecs d then some { code := 10 } else s.descFault d isSplineIn 32 128)
    fun s => { s.matOp (.mspl st at_ da acc row0) with da := s.desc da }
/-- MSPL. -/
def execMspl (st at_ : BitVec 2) (da : BitVec 3) (acc : Bool) (row0 : BitVec 7) (s : State) :
    Outcome State Fault Refusal := (semMspl st at_ da acc row0).run s

/-- The checks of an activation and a gradient descriptor (R163); of rows of both outside the extent, SR_EADDR takes DA's
(DESIGN CHOICE, log 61). -/
def State.pairFault (s : State) (da dg : BitVec 128) : Option TrapInfo :=
  if descBad da isSplineIn (dCols da) 32 128 || descBad dg isSplineIn (dCols dg) 32 128 ||
      decide (dVecs da ≠ dVecs dg) then some { code := 10 }
  else (s.descFault da isSplineIn 32 128).or (s.descFault dg isSplineIn 32 128)

/-- MSPLB: the backward pass (R168). -/
def semMsplb (st at_ : BitVec 2) (dg da : BitVec 3) (acc : Bool) (row0 : BitVec 7) : Sem :=
  matSem st (fun s =>
      if 128 < row0.toNat + dVecs (s.desc da) then some { code := 10 } else s.pairFault (s.desc da) (s.desc dg))
    fun s => { s.matOp (.msplb st at_ dg da acc row0) with da := s.desc da, dg := s.desc dg }
/-- MSPLB. -/
def execMsplb (st at_ : BitVec 2) (dg da : BitVec 3) (acc : Bool) (row0 : BitVec 7) (s : State) :
    Outcome State Fault Refusal := (semMsplb st at_ dg da acc row0).run s

/-- MSPLG: the coefficient gradients (R169). -/
def semMsplg (st : BitVec 2) (dg da : BitVec 3) : Sem :=
  matSem st (fun s => s.pairFault (s.desc da) (s.desc dg))
    fun s => { s.matOp (.msplg st dg da) with da := s.desc da, dg := s.desc dg }
/-- MSPLG. -/
def execMsplg (st : BitVec 2) (dg da : BitVec 3) (s : State) : Outcome State Fault Refusal := (semMsplg st dg da).run s

/-- MREFINE: halves every interval (R170). -/
def semMrefine (st : BitVec 2) : Sem := matSem st (fun _ => none) fun s => s.matOp (.mrefine st)
/-- MREFINE. -/
def execMrefine (st : BitVec 2) (s : State) : Outcome State Fault Refusal := (semMrefine st).run s

/-- MGDRAIN: writes array state to rows (R166). -/
def semMgdrain (st : BitVec 2) (src : GSrc) (xs : XReg) : Sem :=
  matSem st (fun s => s.rowsFault s.myCore ((s.rx xs).toNat / 256) (gsrcRows src))
    fun s => { s.matOp (.mgdrain st src xs) with xs := s.rx xs }
/-- MGDRAIN. -/
def execMgdrain (st : BitVec 2) (src : GSrc) (xs : XReg) (s : State) : Outcome State Fault Refusal :=
  (semMgdrain st src xs).run s

/-- MGZERO: clears the gradient plane (R166). -/
def semMgzero (st : BitVec 2) : Sem := matSem st (fun _ => none) fun s => s.matOp (.mgzero st)
/-- MGZERO. -/
def execMgzero (st : BitVec 2) (s : State) : Outcome State Fault Refusal := (semMgzero st).run s

/-! ## Start and completion (R131, R144, R150, R164) -/

/-- The states that an operation touches when plane `act` is active: planes 0 and 1, tiles 2 to 5, the grid 6, the
gradient plane 7, the counters 8 (R131, R171). -/
def touches (i : Instr) (act : Nat) : List Nat :=
  match i with
  | .mloadw .. => [1 - act]
  | .mswap _ => [0, 1]
  | .mmul _ t .. => [act, 2 + t.toNat]
  | .mmulg _ t .. => [act, 2 + t.toNat]
  | .mdrain _ t .. => [2 + t.toNat]
  | .mdrainV _ t .. => [2 + t.toNat]
  | .mzero _ t => [2 + t.toNat]
  | .mknot .. => [6]
  | .mknotC .. => [1 - act]
  | .mspl _ t .. => [6, act, 2 + t.toNat, 8]
  | .msplb _ t .. => [6, act, 2 + t.toNat]
  | .msplg .. => [6, act, 7]
  | .mrefine _ => [6, 0, 1]
  | .mgdrain _ .g _ => [7]
  | .mgdrain _ .ca _ => [act]
  | .mgdrain _ .cs _ => [1 - act]
  | .mgdrain _ .kn _ => [6]
  | .mgzero _ => [7]
  | _ => []

/-- What the operations that have started touch. -/
def ArrayState.busy (a : ArrayState) : List Nat :=
  streams4.flatMap fun st => (a.queue st).flatMap fun o =>
    match o.started with
    | some act => touches o.instr act
    | none => []

/-- Whether the operation at the head of a stream can start (R131). Operations of different streams start in any order, so
the MSPLG of the last sentence of R172 may go before the MKNOT of stream 0 (R131, R171; DEDUCED, log 54). -/
def ArrayState.startable (a : ArrayState) (o : MatOp) : Bool :=
  o.started.isNone && !o.held && (touches o.instr a.act).all fun t => !a.busy.contains t

/-- The code of the fault that an operation meets at its start (R144, R164, R175). -/
def State.matCheck (s : State) (n : CoreNo) (o : MatOp) : Option Nat :=
  let a := s.arr n
  let spline := if !(a.plane a.act).spline || a.grid.p == 0 then some 10 else none
  match o.instr with
  | .mmul _ _ set _ rev _ _ => a.mulStart o.da set rev
  | .mmulg _ _ set _ rev _ _ _ => a.mulStart o.da set rev
  | .mspl .. => spline
  | .msplb .. => spline
  | .msplg .. => spline
  | .mrefine _ => a.refineStart
  | .mknot .. =>
    let row := o.xs.toNat / 256
    let pl := rowPlace (s.isFused n) n row
    if s.rowBad pl.1 pl.2 0 64 then some 14 else if gridOk (s.row n row) then none else some 10
  | .mgdrain _ .ca _ => if (a.plane a.act).spline then none else some 10
  | .mgdrain _ .cs _ => if (a.plane (1 - a.act)).spline then none else some 10
  | _ => none

/-- The bank lines that an operation reads: row, first byte, end (R132). -/
def MatOp.reads (o : MatOp) : List (Nat × Nat × Nat) :=
  let rows := fun (n : Nat) => (List.range n).map fun i => (o.xs.toNat / 256 + i, 0, 256)
  match o.instr with
  | .mloadw _ _ _ sp _ => dReads o.da (fun j => j) ++ (if sp then rows 1 else [])
  | .mmul .. => dReads o.da (fun j => j)
  | .mmulg .. => dReads o.da (fun j => elem 32 o.vi j)
  | .mdrain _ _ _ _ _ _ q _ => if q then [(dfl o.da 64 16, 0, 256)] else []
  | .mcbook .. => rows 4
  | .mknotC .. => rows 128
  | .mspl .. => dReads o.da (fun j => j)
  | .msplb .. => dReads o.da (fun j => j) ++ dReads o.dg (fun j => j)
  | .msplg .. => dReads o.da (fun j => j) ++ dReads o.dg (fun j => j)
  | _ => []

/-- The first row that an operation reads with an uncorrectable error (R175). -/
def State.matBad (s : State) (n : CoreNo) (o : MatOp) : Option Nat :=
  (o.reads.find? fun e =>
    let pl := rowPlace (s.isFused n) n e.1
    s.rowBad pl.1 pl.2 e.2.1 e.2.2).map (·.1)

/-- The opcode of an M-slot instruction (R340). -/
def opcodeOf (i : Instr) : Nat := bits (encodeSlot { gneg := false, gpred := 0, instr := i }).toNat 48 9

/-- The head of a stream replaced. -/
def State.setHead (s : State) (n : CoreNo) (st : BitVec 2) (o : MatOp) : State :=
  s.mapArr n fun a => a.setQueue st (o :: (a.queue st).drop 1)

/-- An operation faults and is held at the head of its stream (R144). -/
def State.holdMat (s : State) (n : CoreNo) (st : BitVec 2) (o : MatOp) (code ea : Nat) : State :=
  (s.setHead n st { o with started := none, held := true }).post o.key
    { code := code, eaddr := word ea, einfo := engInfo 3 st.toNat (opcodeOf o.instr) } 3 (some (.matrix st))

/-- A held operation starts again (`again`), or leaves its stream (R343). -/
def State.releaseMat (s : State) (n : CoreNo) (st : BitVec 2) (again : Bool) : State :=
  match (s.arr n).queue st with
  | [] => s
  | o :: r =>
    if !o.held then s
    else if again then s.setHead n st { o with held := false }
    else s.mapArr n fun a => a.setQueue st r

/-- MATRIX_OP_START: the head of a stream starts: it fixes the planes and makes its checks (R131, R144, R164). -/
def execMatrixOpStart (n : CoreNo) (st : BitVec 2) (s : State) : Outcome State Fault Refusal :=
  match (s.arr n).queue st with
  | [] => .refused .notEnabled
  | o :: _ =>
    if (s.arr n).startable o then
      match s.matCheck n o with
      | some code => .next (s.holdMat n st o code (if code = 14 then o.xs.toNat / 256 * 256 else 0))
      | none => .next (s.setHead n st { o with
          started := some (s.arr n).act
          latch := match o.instr with | .mknot .. => s.row n (o.xs.toNat / 256) | _ => 0 })
    else .refused .notEnabled

/-- The effect of an operation that started with plane p active (DESIGN CHOICE, log 23). -/
def State.matEffect (s : State) (n : CoreNo) (o : MatOp) (p : Nat) : State :=
  match o.instr with
  | .mloadw _ set _ sp _ => s.loadW n set sp o (1 - p)
  | .mswap _ => s.mapArr n fun a => { a with act := 1 - a.act }
  | .mmul _ t set _ rev acc row0 => s.multiply n o p t set rev acc row0.toNat id
  | .mmulg _ t set _ rev acc row0 _ => s.multiply n o p t set rev acc row0.toNat (fun j => elem 32 o.vi j)
  | .mdrain _ t _ row0 rnd clr q sl => s.drain n o t row0.toNat rnd clr q sl
  | .mdrainV _ t vd row0 rnd ty clr => s.drainV n o t vd row0.toNat rnd ty clr
  | .mzero _ t => s.mapArr n fun a => a.mapTile t fun _ => {}
  | .mcbook .. => s.loadCodebook n (o.xs.toNat / 256)
  | .mstat _ xd sl clr => s.matStatus n o xd sl clr
  | .mknot .. => s.mapArr n fun a =>
      { a with kn := tcells 0 0 ((List.range 13).map (elem 32 o.latch)), knctl := word (elem 64 o.latch 7) }
  | .mknotC .. => s.mapArr n fun a => a.mapPlane (1 - p) fun _ =>
      { spline := true, sets := [],
        slots := tcells 0 0 ((List.range 128).flatMap fun i =>
          (List.range 128).map (elem 16 (s.row n (o.xs.toNat / 256 + i)))) }
  | .mspl _ t _ acc row0 => s.spl n o p t acc row0.toNat
  | .msplb _ t _ _ acc row0 => s.splB n o p t acc row0.toNat
  | .msplg .. => s.splG n o
  | .mrefine _ => s.refine n o p
  | .mgdrain _ src _ => s.gdrain n src (o.xs.toNat / 256) p
  | .mgzero _ => s.mapArr n fun a => { a with grad := [] }
  | _ => s

/-- Whether an operation is an entry of MFENCE. -/
def isFence : Instr → Bool
  | .mfence => true
  | _ => false

/-- Whether an operation issued before number `id` is not complete. -/
def ArrayState.earlier (a : ArrayState) (id : Nat) : Bool :=
  streams4.any fun st => (a.queue st).any fun o => decide (o.id < id)

/-- MATRIX_OP_COMPLETE: the operation at the head of a stream takes its effect and leaves the queue; an entry of
MFENCE leaves it when every operation issued before it is complete (R131, R150). -/
def execMatrixOpComplete (n : CoreNo) (st : BitVec 2) (s : State) : Outcome State Fault Refusal :=
  match (s.arr n).queue st with
  | [] => .refused .notEnabled
  | o :: r =>
    match o.started with
    | none => .refused .notEnabled
    | some p =>
      if isFence o.instr && (s.arr n).earlier o.id then .refused .notEnabled
      else match s.matBad n o with
        | some row => .next (s.holdMat n st o 14 (256 * row))
        | none => .next ((s.matEffect n o p).mapArr n fun a => a.setQueue st r)

end Sys2Proof.Machine
end

