-- ==== Sys2Proof/Machine/Stash.lean ====
section
/-! DEFINITION. Locket: the STASH commands, their receipt and completion, and the MX8 encoding (R77, R245 to R251). -/

namespace Sys2Proof.Machine

open Host (Outcome)

/-! ## Command blocks (R246) -/

/-- The kinds that take a handle and store data. -/
def StashKind.isStore : StashKind → Bool
  | .c .. => true | .s _ => true | .d => true | _ => false
/-- SRCK of a command (R231). -/
def StashKind.srck : StashKind → Nat
  | .c .. => 4 | .s _ => 5 | .d => 6 | .p => 7 | .f => 8 | .q _ => 0
/-- Whether LEN = 0 is allowed. -/
def StashKind.mayBeEmpty : StashKind → Bool
  | .p => true | .f => true | _ => false

/-- Whether a command block holds no reserved bit and LEN is in range for the command (R246). -/
def stashBlockOk (kind : StashKind) (l : List Byte) : Bool :=
  let len := dfield l 8 4
  let rest := dfield l 16 1 / 8 == 0 && dfield l 17 1 / 16 == 0 && ofBytes (l.drop 18) == 0
  match kind with
  | .q _ => rest
  | _ =>
    rest && dfield l 0 1 == 0 && dfield l 7 1 == 0 && len % 256 == 0 && decide (len ≤ 2 ^ 23) &&
      (kind.mayBeEmpty || decide (256 ≤ len))

/-- The command of a block. -/
def stashCmd (id : Nat) (k : CtxKey) (h : BitVec 6) (kind : StashKind) (l : List Byte) : StashCmd :=
  { id := id, key := k, h := h, kind := kind, region := dfield l 0 8, len := dfield l 8 4, tag := dfield l 12 4,
    stage := BitVec.ofNat 3 (dfield l 16 1), slot := dfield l 17 1, held := false, ret := none }

/-- The faults of reading a command block at issue (R173, R175, R246). -/
def State.stashFault (s : State) (kind : StashKind) (ea : Word) : Option TrapInfo :=
  match s.blockFault ea with
  | some t => some t
  | none => if stashBlockOk kind (s.block64At s.myCore ea) then none else some { code := 10 }

/-- A command sent: its handle FILLING and a partial release of its region (R247). -/
def State.sendStash (s : State) (h : BitVec 6) (kind : StashKind) (ea : Word) : State :=
  let k := s.iss.key
  let c := stashCmd s.starts k h kind (s.block64At s.myCore ea)
  let s := { (s.mapHandle s.myCore h fun x => { x with st := .filling }) with
    stash := s.stash ++ [c], starts := s.starts + 1 }
  if c.len = 0 then s
  else s.startRelease k (.stash c.id) [(c.region, c.len)] (s.copiesIn k [(c.region, c.len)])

/-- A STASH command that takes a handle (R246, R247). -/
def stashSem (h : BitVec 6) (kind : StashKind) (base : XReg) (off : BitVec 32) : Sem :=
  ({ fault := fun s => s.stashFault kind (s.ea base off)
     block := fun s => s.needFree h
     eff := fun s => s.sendStash h kind (s.ea base off) } : Sem).onRow

/-- STASHC: compresses a region into the HBM4E pool (R249). -/
def semStashc (h : BitVec 6) (base : XReg) (off : BitVec 32) (mx8 dead bf16 : Bool) : Sem :=
  stashSem h (.c mx8 dead bf16) base off
/-- STASHC. -/
def execStashc (h : BitVec 6) (base : XReg) (off : BitVec 32) (mx8 dead bf16 : Bool) (s : State) :
    Outcome State Fault Refusal := (semStashc h base off mx8 dead bf16).run s

/-- STASHS: spills a region to the LPDDR-6 pool (R249). -/
def semStashs (h : BitVec 6) (base : XReg) (off : BitVec 32) (dead : Bool) : Sem := stashSem h (.s dead) base off
/-- STASHS. -/
def execStashs (h : BitVec 6) (base : XReg) (off : BitVec 32) (dead : Bool) (s : State) : Outcome State Fault Refusal :=
  (semStashs h base off dead).run s

/-- STASHD: drops a region (R249). -/
def semStashd (h : BitVec 6) (base : XReg) (off : BitVec 32) : Sem := stashSem h .d base off
/-- STASHD. -/
def execStashd (h : BitVec 6) (base : XReg) (off : BitVec 32) (s : State) : Outcome State Fault Refusal :=
  (semStashd h base off).run s

/-- STASHP: restores an entry into the handle's rows (R250). -/
def semStashp (h : BitVec 6) (base : XReg) (off : BitVec 32) : Sem := stashSem h .p base off
/-- STASHP. -/
def execStashp (h : BitVec 6) (base : XReg) (off : BitVec 32) (s : State) : Outcome State Fault Refusal :=
  (semStashp h base off).run s

/-- STASHF: frees an entry (R248). -/
def semStashf (h : BitVec 6) (base : XReg) (off : BitVec 32) : Sem := stashSem h .f base off
/-- STASHF. -/
def execStashf (h : BitVec 6) (base : XReg) (off : BitVec 32) (s : State) : Outcome State Fault Refusal :=
  (semStashf h base off).run s

/-- STASHQ: asks for an entry's state; the reply comes later (R247, R251). -/
def semStashq (rd base : XReg) (off : BitVec 32) : Sem :=
  ({ fault := fun s => s.stashFault (.q rd) (s.ea base off)
     eff := fun s =>
       ({ s with
          stash := s.stash ++ [stashCmd s.starts s.iss.key 0 (.q rd) (s.block64At s.myCore (s.ea base off))]
          starts := s.starts + 1 } : State).awaitX rd } : Sem).onRow
/-- STASHQ. -/
def execStashq (rd base : XReg) (off : BitVec 32) (s : State) : Outcome State Fault Refusal := (semStashq rd base off).run s

/-! ## MX8 (R77) -/

/-- The E8M0 scale byte of a block (R77). Of a block without a finite element, on whose amax R77 is silent, it is that of
amax = 0 (DESIGN CHOICE, log 46). -/
def mx8Scale (l : List FVal) : Nat :=
  let exps : List Int := l.filterMap fun x => match x with
    | .fin _ m e => if m = 0 then none else some ((bitLen m : Int) - 1 + e)
    | _ => none
  match exps with
  | [] => 127
  | a :: r =>
    let top : Int := r.foldl max a
    (max (-127) (min 127 (top - 8)) + 127).toNat

/-- The E4M3 byte of an element under a scale byte (R77). -/
def mx8Elem (sc : Nat) (x : FVal) : Nat :=
  match x with
  | .fin neg m e => ((ETy.fmt .e4m3).round .rne 0 neg m (e + 127 - sc) false).1
  | _ => 0x7F

/-- The elements of a region in a format of width w. -/
def elemsOf (f : Fmt) (w : Nat) (bs : List Byte) : List FVal :=
  (List.range (8 * bs.length / w)).map fun i => f.decode (ofBytes ((bs.drop (w / 8 * i)).take (w / 8)))

/-- The blocks of 32 elements. -/
def blocks32 (n : Nat) (l : List FVal) : List (List FVal) := (List.range n).map fun b => (l.drop (32 * b)).take 32

/-- NB of LEN bytes (R249). -/
def mx8Blocks (bf16 : Bool) (len : Nat) : Nat := if bf16 then len / 64 else len / 128

/-- SIZE of an MX8 image (R249). -/
def mx8Size (bf16 : Bool) (len : Nat) : Nat := 256 * ceilDiv (mx8Blocks bf16 len) 256 + 32 * mx8Blocks bf16 len

/-- An MX8 image as the places and bytes written: the scales, then the elements (R249). -/
def mx8Image (bf16 : Bool) (bs : List Byte) : List (Nat × List Byte) :=
  let nb := mx8Blocks bf16 bs.length
  let bl := blocks32 nb (if bf16 then elemsOf (ETy.fmt .bf16) 16 bs else elemsOf fmt32 32 bs)
  let sc := bl.map mx8Scale
  [(0, sc.map (BitVec.ofNat 8)),
   (256 * ceilDiv nb 256, (bl.zip sc).flatMap fun e => e.1.map fun x => BitVec.ofNat 8 (mx8Elem e.2 x))]

/-- An MX8 image decoded to the format it was stored from; a scale byte 0xFF is NaN (R60, R77, R250). -/
def mx8Decode (bf16 : Bool) (len : Nat) (im : List Byte) : List Byte :=
  let nb := mx8Blocks bf16 len
  let f : Fmt := if bf16 then ETy.fmt .bf16 else fmt32
  (List.range (32 * nb)).flatMap fun i =>
    let sc := (im.getD (i / 32) 0).toNat
    let e := (im.getD (256 * ceilDiv nb 256 + i) 0).toNat
    let sv : FVal := if sc = 255 then .nan else .fin false 1 ((sc : Int) - 127)
    toBytes (if bf16 then 2 else 4) (f.rne (fvMul ((ETy.fmt .e4m3).decode e) sv).1).1

/-! ## Entries and pools (R245, R248) -/

/-- A virtual stage of Locket. -/
def State.lstage (s : State) (v : BitVec 3) : LocketStage := tget {} v.toNat s.locket
/-- A virtual stage changed. -/
def State.mapLstage (s : State) (v : BitVec 3) (f : LocketStage → LocketStage) : State :=
  { s with locket := tmod {} v.toNat f s.locket }
/-- The entry of a tag and slot; none for EMPTY. -/
def LocketStage.find (x : LocketStage) (tag slot : Nat) : Option StashEntry :=
  x.entries.find? fun e => e.tag == tag && e.slot == slot
/-- An entry removed. -/
def LocketStage.drop (x : LocketStage) (tag slot : Nat) : LocketStage :=
  { x with entries := x.entries.filter fun e => !(e.tag == tag && e.slot == slot) }
/-- An entry put in place of the one of its tag and slot. -/
def LocketStage.put (x : LocketStage) (e : StashEntry) : LocketStage :=
  { x.drop e.tag e.slot with entries := (x.drop e.tag e.slot).entries ++ [e] }

/-- The runs of a pool that images take: first byte and length; `lp` for the LPDDR-6 pool. -/
def LocketStage.taken (x : LocketStage) (lp : Bool) : List (Nat × Nat) :=
  x.entries.filterMap fun e =>
    if (lp && e.kind == 2) || (!lp && decide (e.kind < 2)) then some (256 * e.off, 256 * ceilDiv e.size 256) else none

/-- Whether `need` bytes at byte o of a pool are free (R248). -/
def LocketStage.freeAt (x : LocketStage) (lp : Bool) (o need : Nat) : Bool :=
  decide (o + need ≤ (if lp then x.lsize else x.hsize).toNat) &&
    (x.taken lp).all fun t => decide (o + need ≤ t.1) || decide (t.1 + t.2 ≤ o)

/-- Whether some free run of a pool fits `need` bytes (R248). -/
def LocketStage.hasRun (x : LocketStage) (lp : Bool) (need : Nat) : Bool :=
  (0 :: (x.taken lp).map fun t => t.1 + t.2).any fun o => x.freeAt lp o need

/-- The pool space that a command needs and whether it is the LPDDR-6 pool's; none where it stores no image (R248). -/
def StashCmd.need (c : StashCmd) : Option (Bool × Nat) :=
  match c.kind with
  | .c mx8 _ bf16 =>
    some (false, if mx8 then 256 * ceilDiv (mx8Size bf16 c.len) 256 else 256 * ceilDiv (c.len + 256) 256)
  | .s _ => some (true, 256 * ceilDiv c.len 256)
  | _ => none

/-- The RESULT of a command other than OK, on a handle of `nrows` rows, `others` entries of the stage being STORING beside its
own (R248, R250). -/
def StashCmd.result (c : StashCmd) (x : LocketStage) (others nrows : Nat) : Nat :=
  let e := x.find c.tag c.slot
  if x.hsize = 0 ∧ x.lsize = 0 then 7
  else if c.kind.isStore && e.isNone && !c.storing && decide (1024 ≤ x.entries.length + others) then 3
  else if (match c.need with | some (lp, n) => !x.hasRun lp n | none => false) then 2
  else match c.kind, e with
    | .p, none => 5
    | .p, some e => if e.st = .dropped then 1 else if 256 * nrows < e.len then 6 else 0
    | .f, _ => 0
    | .q _, _ => 0
    | _, none => 0
    | _, some _ => 4

/-- Whether two commands name one entry. -/
def StashCmd.same (a b : StashCmd) : Bool := a.stage == b.stage && a.tag == b.tag && a.slot == b.slot

/-- The RESULT of a received command as things stand (R248). A store that is STORING has reserved no space of its pool, and may
still end NOSPACE when another completes first (DESIGN CHOICE, log 46). -/
def State.stashResult (s : State) (c : StashCmd) : Nat :=
  let others := s.stashRx.filter fun r => r.storing && r.ret.isNone && r.stage == c.stage && r.id != c.id
  c.result (s.lstage c.stage) others.length (s.handle (keyCore c.key) c.h).nrows

/-- Whether a command stores an image of data, and makes its entry STORING meanwhile (R248). -/
def StashKind.storesData : StashKind → Bool
  | .c .. => true | .s _ => true | _ => false

/-- A received command replaced. -/
def State.setStashRx (s : State) (c : StashCmd) : State :=
  { s with stashRx := s.stashRx.map fun x => if x.id = c.id then c else x }

/-- The stores that come to be performed, in the order of receipt: each the first for its entry, which leaves EMPTY (R247,
R248). -/
def State.startStores (s : State) : State :=
  (List.range s.stashRx.length).foldl (fun s i =>
    match s.stashRx[i]? with
    | some c =>
      if c.kind.storesData && !c.storing && c.ret.isNone && !((s.stashRx.take i).any fun x => x.same c) &&
          s.stashResult c == 0 then { s with stashRx := s.stashRx.set i { c with storing := true } }
      else s
    | none => s) s

/-- STATE of an entry as STASHQ sees it (R248, R251). -/
def StashState.code : StashState → Nat
  | .storing => 1 | .compressed => 2 | .spilled => 3 | .dropped => 4 | .prefetching => 5 | .ready => 6

/-- The value that STASHQ reports (R251): STORING or PREFETCHING while the first command received for the entry is being
performed. A STORING entry, which has no image yet, reports KIND 3, ELEM 0 and OFFSET 0 (DESIGN CHOICE, log 46). -/
def State.stashWord (s : State) (c : StashCmd) : Word :=
  let x := s.lstage c.stage
  let e := x.find c.tag c.slot
  let st := match e with | none => 0 | some e => StashState.code e.st
  let st := match s.stashRx.find? (fun r => r.same c) with
    | some r =>
      if r.ret.isSome then st
      else if r.storing then 1
      else if r.kind = .p ∧ s.stashResult r = 0 then 5
      else st
    | none => st
  match e with
  | none => word (st + 16 * 3)
  | some e => word (st + 16 * e.kind + 64 * b2n e.bf16 + 2 ^ 32 * (if e.kind = 3 then 0 else e.off))

/-! ## Receipt and completion (R247 to R250) -/

/-- Whether the partial release of a command is complete. -/
def State.stashReleased (s : State) (c : StashCmd) : Bool := !(s.ctx c.key).releases.any fun r => r.kind == .stash c.id

/-- STASH_COMMAND_RECEIPT: Locket receives the next command of a context, in issue order, once its release is complete;
a query is answered at its receipt (R247, R251; DEDUCED, log 46). -/
def execStashCommandReceipt (k : CtxKey) (s : State) : Outcome State Fault Refusal :=
  match s.stash.find? (fun c => c.key == k) with
  | none => .refused .notEnabled
  | some c =>
    if !s.stashReleased c then .refused .notEnabled
    else
      let s' := { s with stash := s.stash.erase c }
      match c.kind with
      | .q xd => .next (s'.mapCtx k fun x => { x with replies := x.replies ++ [(xd, s.stashWord c)] })
      | _ => .next ({ s' with stashRx := s.stashRx ++ [c] } : State).startStores

/-- The blocks of an HBM4E region marked dead (R209, R249). -/
def State.markDead (s : State) (u va len : Nat) : State :=
  (blockPieces va len).foldl (fun s p =>
    match s.pte u p.1 with
    | some e =>
      if pteLp e then s.cache u p.1
      else
        let s := s.cache u p.1
        { s with dram := { s.dram with dead := tput false (pteByte e p.1 / 256) true s.dram.dead } }
    | none => s) s

/-- The pieces of an image committed to a pool, or the fault. -/
def State.putImage (s : State) (base : Nat) (l : List (Nat × List Byte)) : Except (Nat × Nat) State :=
  match l.findSome? (fun e => s.writeFault 8 (base + e.1) e.2.length) with
  | some f => .error f
  | none => .ok (l.foldl (fun s e => s.commitBytes 8 (base + e.1) e.2) s)

/-- A LOSSLESS image noted where it lies (R242, DESIGN CHOICE, log 13). -/
def State.noteImage (s : State) (va : Nat) (bs : List Byte) : State :=
  match s.pte 8 va with
  | some e =>
    let b := pteByte e va / 256
    { s with dram := { s.dram with images := (b, bs) :: s.dram.images.filter fun x => x.1 != b } }
  | none => s

/-- What the data work of a command gives: the state, SIZE, NOTLIVE and the bytes to restore; or its fault (R249,
R250). `place` is the offset that Locket chooses for an image. -/
def State.stashWork (s : State) (c : StashCmd) (place : Nat) : Except (Nat × Nat) (State × Nat × Bool × List Byte) :=
  let x := s.lstage c.stage
  let entry := fun (st : StashState) (kind : Nat) (bf16 : Bool) (size : Nat) (data : List Byte) =>
    ({ tag := c.tag, slot := c.slot, st := st, kind := kind, bf16 := bf16, off := if kind = 3 then 0 else place,
       size := size, len := c.len, data := data } : StashEntry)
  let put := fun (s : State) (e : StashEntry) => s.mapLstage c.stage fun x => x.put e
  let kill := fun (s : State) (dead : Bool) => if dead then s.markDead 8 c.region c.len else s
  match c.kind with
  | .c mx8 dead bf16 =>
    (match s.readVA 8 (some c.key) c.region c.len with
     | .error f => .error f
     | .ok (bs, nl) =>
       let s := s.cacheN 8 c.region c.len
       let size := if mx8 then mx8Size bf16 c.len else losslessSize bs
       let im := if mx8 then mx8Image bf16 bs else [(0, losslessImage bs)]
       let va := x.hbase.toNat + 256 * place
       match s.putImage va im with
       | .error f => .error f
       | .ok s =>
         let s := if mx8 then s else s.noteImage va bs
         .ok (kill (put s (entry .compressed (if mx8 then 1 else 0) (mx8 && bf16) size (if mx8 then [] else bs))) dead,
           size, nl, []))
  | .s dead =>
    (match s.readVA 8 (some c.key) c.region c.len with
     | .error f => .error f
     | .ok (bs, nl) =>
       match (s.cacheN 8 c.region c.len).putImage (x.lbase.toNat + 256 * place) [(0, bs)] with
       | .error f => .error f
       | .ok s => .ok (kill (put s (entry .spilled 2 false c.len [])) dead, c.len, nl, []))
  | .d =>
    (match (blockPieces c.region c.len).find? (fun p => (s.pte 8 p.1).isNone) with
     | some p => .error (7, p.1)
     | none => .ok (kill (put s (entry .dropped 3 false 0 [])) true, 0, false, []))
  | .p =>
    (match x.find c.tag c.slot with
     | none => .ok (s, 0, false, [])
     | some e =>
       let a := (if e.kind = 2 then x.lbase else x.hbase).toNat + 256 * e.off
       match s.readVA 8 none a e.size with
       | .error f => .error f
       | .ok (bs, nl) =>
         let s := s.cacheN 8 a e.size
         let ok := bs == losslessImage e.data
         let out := if e.kind = 2 then bs
           else if e.kind = 1 then mx8Decode e.bf16 e.len bs
           else if ok then e.data
           else (((Config.losslessOther s.fresh).getD []) ++ List.replicate e.len 0).take e.len
         let s := if e.kind = 0 && !ok then s.bump else s
         .ok (put s { e with st := .ready }, e.len, nl, out))
  | .f => .ok (s.mapLstage c.stage fun x => x.drop c.tag c.slot, 0, false, [])
  | .q _ => .ok (s, 0, false, [])

/-- A command's access faults: it is held (R233, R245). -/
def State.holdStash (s : State) (c : StashCmd) (code ea : Nat) : State :=
  ((s.setStashRx { c with held := true }).clearHandle c.key c.h).post c.key
    { code := code, eaddr := word ea, einfo := engInfo 6 c.h.toNat (c.slot + 16 * c.stage.toNat) } 6 (some (.stash c.id))

/-- The return of a command: the restored rows written, the handle FULL (R250, R382). -/
def State.returnStash (s : State) (c : StashCmd) (status : Word) (bs : List Byte) : State :=
  let n := keyCore c.key
  let brow := (s.handle n c.h).brow
  let s := (List.range (bs.length / 256)).foldl (fun s i =>
    s.writeRow n (brow + i) fullMask (placeBytes 0 ((bs.drop (256 * i)).take 256))) s
  ({ (s.mapHandle n c.h fun y => { y with st := .full, status := status }) with
    stashRx := s.stashRx.filter fun x => x.id != c.id } : State).startStores

/-- STASH_COMMAND_COMPLETE: the received command in place idx ends its data work, and then returns (R248, R382). It is
the first received for its entry. `place` is where Locket puts an image, in units of 256 bytes. -/
def execStashCommandComplete (idx place : Nat) (s : State) : Outcome State Fault Refusal :=
  match s.stashRx[idx]? with
  | none => .refused .notEnabled
  | some c =>
    if c.held || (s.stashRx.take idx).any (fun x => x.same c) then .refused .notEnabled
    else match c.ret with
      | some (st, bs) => .next (s.returnStash c st bs)
      | none =>
        let x := s.lstage c.stage
        let r := s.stashResult c
        if r ≠ 0 then .next (s.setStashRx { c with ret := some (handleStatus r false c.kind.srck 0, []) }).startStores
        else if (match c.need with | some (lp, n) => !x.freeAt lp (256 * place) n | none => false) then
          .refused .notEnabled
        else match s.stashWork c place with
          | .error (code, ea) => .next (s.holdStash c code ea)
          | .ok (s, size, nl, bs) =>
            .next (s.setStashRx { c with ret := some (handleStatus 0 nl c.kind.srck size, bs) }).startStores

/-- A held command performed again, or dropped with its handle FREE (R233). -/
def State.againStash (s : State) (id : Nat) (again : Bool) : State :=
  match s.stashRx.find? (fun c => c.id == id && c.held) with
  | none => s
  | some c =>
    if again then s.setStashRx { c with held := false }
    else ({ (s.mapHandle (keyCore c.key) c.h fun y =>
        { y with st := .free, status := handleStatus 0 false c.kind.srck 0 }) with
      stashRx := s.stashRx.filter fun x => x.id != id } : State).startStores

end Sys2Proof.Machine
end

