-- ==== Sys2Proof/Machine/System.lean ====
section
/-! DEFINITION. Traps at a bundle boundary, the STOP sequence, ERET, CTXSAVE and CTXLOAD, DLOAD, TLBINV, and the host's
accesses through BAR2 (R208, R278, R341 to R349, R355). -/

namespace Sys2Proof.Machine

open Host (Outcome)

/-- The protection trap of a privileged instruction outside system mode (R51, R344). -/
def State.privFault (s : State) : Option TrapInfo := if s.me.sys then none else some { code := 8 }

/-! ## TRAP and BRK (R345) -/

/-- TRAP: the software trap, once the other slots of its bundle have committed (R345). -/
def semTrap (n : BitVec 16) : Sem :=
  { eff := fun s => takeTrap s.iss.key { code := 19, einfo := n.setWidth 64 } s.iss.pcn 0 false false none s }
/-- TRAP. -/
def execTrap (n : BitVec 16) (s : State) : Outcome State Fault Refusal := (semTrap n).run s

/-- BRK: the breakpoint trap at issue (R345). -/
def semBrk (n : BitVec 16) : Sem :=
  { fault := fun _ => some { code := 20, einfo := n.setWidth 64 }, eff := fun s => s }
/-- BRK. -/
def execBrk (n : BitVec 16) (s : State) : Outcome State Fault Refusal := (semBrk n).run s

/-! ## Held operations (R343) -/

/-- A held operation replayed or discarded (R343). -/
def State.again (s : State) (k : CtxKey) (replay : Bool) (o : HeldOp) : State :=
  match o with
  | .fill sn _ => s.againStream k sn replay
  | .drain sn _ => s.againStream k sn replay
  | .matrix st => s.releaseMat (keyCore k) st replay
  | .copy d ch => s.againCopy d.toNat ch replay
  | .gather id => s.againGather (keyCore k) id replay
  | .scatter id => s.againGather (keyCore k) id replay
  | .stash id => s.againStash id replay
  | .probe i => s.againProbe k i replay
  | .commit va => s.againCommit k va replay
  | .amog n => s.againAmog k n replay
  | .chsend ch q => s.againSend ch q replay
  | .query qh => s.againQuery k qh replay
  | .sginst id => s.againSginst k id replay

/-- The taken operation of a context replayed or discarded, and HELD cleared (R345). -/
def State.againTaken (s : State) (k : CtxKey) (replay : Bool) : State :=
  let s := match (s.ctx k).held with | some o => s.again k replay o | none => s
  s.mapCtx k fun c => { c with held := none, tr := { c.tr with cause := c.tr.cause &&& ~~~0x400#64 } }

/-- Every held operation of a context discarded, its fault taken or pending (R346). -/
def State.discardAll (s : State) (k : CtxKey) : State :=
  let s := s.againTaken k false
  let s := (s.ctx k).pend.foldl (fun s f => match f.held with | some o => s.again k false o | none => s) s
  s.mapCtx k fun c => { c with pend := [] }

/-! ## The STOP sequence (R278) -/

/-- Every binding of a context changed. -/
def Ctx.mapStreams (c : Ctx) (f : Stream → Stream) : Ctx := { c with streams := c.streams.map fun e => (e.1, f e.2) }

/-- Step 1: the loader of each IN stream stops, behind a stop token (R278). -/
def Ctx.stopLoaders (c : Ctx) : Ctx :=
  c.mapStreams fun x => { x with token := x.bound && x.kind == 0 }

/-- The loaders run again (R278). -/
def Ctx.restartLoaders (c : Ctx) : Ctx :=
  c.mapStreams fun x => { x with token := false }

/-- Step 3: a buffer emptied of what has been filled and not consumed, or not advanced (R278). -/
def Stream.emptied (x : Stream) : Stream :=
  if x.kind = 0 then { x with filled := [], again := none } else { x with recs := 0 }

/-- Every buffer of a context emptied; an optimiser output into a slot not advanced is written all the same (R126, R278). -/
def Ctx.emptyStreams (c : Ctx) : Ctx := c.mapStreams Stream.emptied

/-- Whether an IN stream of a context is bound. -/
def Ctx.hasIn (c : Ctx) : Bool := c.streams.any fun e => e.2.bound && e.2.kind == 0

/-- The sequence begins in a context in user mode: without an IN stream its trap is due at the next bundle boundary,
and a parked context takes it where it is (R278). -/
def State.beginStop (s : State) (k : CtxKey) : State :=
  let s := s.mapCtx k fun c => { c.stopLoaders with stop := .running, stopTrap := c.stopTrap || !c.hasIn }
  match (s.ctx k).run with
  | .parked _ => (s.mapCtx k fun c => { c with stopTrap := true }).reach k
  | _ => s

/-- The context that a STOP names: its core in bits [11:0], its number in [13:12] (R349). -/
def stopTarget (v : Word) : CtxKey := mkKey (v.setWidth 12) (BitVec.ofNat 2 (v.toNat / 2 ^ 12))

/-- STOP: sends a request to a context (R349). -/
def semStop (rd xs : XReg) : Sem :=
  { fault := fun s => s.privFault.or (if (s.rx xs).toNat < 2 ^ 14 then none else some { code := 10 })
    eff := fun s =>
      ({ s with stops := s.stops ++ [{ key := s.iss.key, xd := rd, target := stopTarget (s.rx xs) }] } : State).awaitX rd }
/-- STOP. -/
def execStop (rd xs : XReg) (s : State) : Outcome State Fault Refusal := (semStop rd xs).run s

/-- STOP_ARRIVAL: a request reaches its target, and is answered (R349). -/
def execStopArrival (idx : Nat) (s : State) : Outcome State Fault Refusal :=
  match s.stops[idx]? with
  | none => .refused .notEnabled
  | some q =>
    let s := { s with stops := s.stops.eraseIdx idx }
    let answer := fun (s : State) (v : Nat) =>
      s.mapCtx q.key fun c => { c with replies := c.replies ++ [(q.xd, word v)] }
    let c := s.ctx q.target
    if !c.share.held then .next (answer s 1)
    else if c.stop != .none then .next (answer s 2)
    else if c.sys then .next (answer (s.mapCtx q.target fun c => { c with stop := .requested }) 0)
    else .next (answer (s.beginStop q.target) 0)

/-! ## Traps at a bundle boundary (R341, R342) -/

/-- Whether a fault is taken before another (R341). -/
def PendFault.before (a b : PendFault) : Bool := decide (a.clk < b.clk) || (a.clk == b.clk && decide (a.srce ≤ b.srce))

/-- The pending fault that is taken first (R341). -/
def firstFault : List PendFault → Option PendFault
  | [] => none
  | f :: r =>
    match firstFault r with
    | none => some f
    | some g => if f.before g then some f else some g

/-- Whether a context is due its budget-overrun trap: its budget has reached zero, noted or not (R277). -/
def Ctx.overrunDue (c : Ctx) (clk : Nat) : Bool := c.overrun || c.budget.due clk

/-- Whether a context is due its stop-token trap: it stands due, or a context that is being stopped has no bound IN
stream (R278). -/
def Ctx.stopDue (c : Ctx) : Bool := c.stopTrap || (c.stop == .running && !c.hasIn)

/-- Whether an engine-discovered or asynchronous trap awaits a context's next bundle boundary at a clk (R341). -/
def Ctx.trapDue (c : Ctx) (clk : Nat) : Bool := !c.sys && (!c.pend.isEmpty || c.overrunDue clk || c.stopDue)

/-- The trap that a context in user mode takes at a bundle boundary (R278, R341). -/
def State.takePending (s : State) (k : CtxKey) : Option State :=
  let c := s.ctx k
  if c.sys then none
  else match firstFault c.pend with
    | some f =>
      let s := s.mapCtx k fun c => { c with pend := c.pend.erase f }
      some (takeTrap k f.info c.pc 0 true false f.held s)
    | none =>
      if c.overrunDue s.clk then
        some (takeTrap k { code := 17 } c.pc 0 false true none (s.mapCtx k fun c =>
          { c with overrun := false, budget := { c.budget.settle s.clk with off := true } }))
      else if c.stopDue then
        let s := s.mapCtx k fun c => { c.stopLoaders.emptyStreams with stopTrap := false, stop := .trapped }
        some (takeTrap k { code := 18 } c.pc 0 false true none s)
      else none

/-- Whether a context is the one that its core issues from. -/
def State.isCurrent (s : State) (k : CtxKey) : Bool := (s.core (keyCore k)).cur == some (keyCtx k)

/-- A trap that is due reaches its context: a parked one becomes ready, and the current one takes it, once it has sampled
the abort flag on waking (R272, R341, R342). -/
def State.deliver (s : State) (k : CtxKey) : Outcome State Fault Refusal :=
  match (s.ctx k).run with
  | .parked _ => .next (s.wake k)
  | .ready =>
    if s.isCurrent k && !(s.ctx k).waking then
      match s.takePending k with
      | some s => .next s
      | none => .refused .notEnabled
    else .refused .notEnabled
  | _ => .refused .notEnabled

/-- ENGINE_FAULT_DELIVERY (R341, R342). -/
def execEngineFaultDelivery (k : CtxKey) (s : State) : Outcome State Fault Refusal :=
  if !(s.ctx k).sys && !(s.ctx k).pend.isEmpty then s.deliver k else .refused .notEnabled

/-- STOP_TOKEN_TRAP: where no fault and no overrun goes first (R278, R341). -/
def execStopTokenTrap (k : CtxKey) (s : State) : Outcome State Fault Refusal :=
  let c := s.ctx k
  if !c.sys && c.stopDue && c.pend.isEmpty && !c.overrunDue s.clk then s.deliver k else .refused .notEnabled

/-! ## ERET (R345) -/

/-- A STOP sequence whose trap has been taken ends with the return to user mode, and the loaders run (R278). -/
def Ctx.endStop (c : Ctx) : Ctx :=
  if c.tr.epc.toNat / 2 ^ 63 = 1 || c.stop == .running then c
  else { c.restartLoaders with stop := if c.stop = .trapped then .none else c.stop }

/-- ERET, `disc` with DISC: the held operation, the STOP sequence, then the return (R278, R345, R349; DEDUCED, log 28). -/
def semReturn (disc : Bool) : Sem :=
  { fault := State.privFault
    eff := fun s =>
      let k := s.iss.key
      let s := if s.me.tr.cause.getLsbD 10 then s.againTaken k (!disc) else s
      let s := returnFromTrap k (s.mapMe Ctx.endStop)
      if !s.me.sys && s.me.stop == .requested then s.beginStop k else s }

/-- ERET (R345). -/
def semEret : Sem := semReturn false
/-- ERET. -/
def execEret (s : State) : Outcome State Fault Refusal := semEret.run s

/-- ERET with DISC (R345). -/
def semEretDisc : Sem := semReturn true
/-- ERET with DISC. -/
def execEretDisc (s : State) : Outcome State Fault Refusal := semEretDisc.run s

/-! ## The image of a context (R346) -/

/-- Rows and bytes of an image. -/
def imageRows : Nat := 41
/-- Its bytes. -/
def imageBytes : Nat := imageRows * 256

/-- The predicates as an image holds them: bit n for pn, p0 reading true. -/
def Ctx.predWord (c : Ctx) : Nat :=
  1 + (((List.range 63).map fun i => b2n (tget false (i + 1) c.regs.p) * 2 ^ (i + 1)).foldl (· + ·) 0)

/-- The 64 bytes of a stream in an image. -/
def Stream.imageBytes (x : Stream) : List Byte :=
  if x.bound then
    x.descBytes ++ toBytes 1 x.tail ++ toBytes 2 0 ++ toBytes 8 x.pos ++ toBytes 4 x.eb ++ toBytes 1 1 ++ toBytes 11 0
  else toBytes 64 0

/-- PINV.cfg's value of a probe set (R213). -/
def ProbeSet.cfg (p : ProbeSet) : Nat := p.srow + 65536 * p.nslot

/-- Row 35 of an image. -/
def Ctx.imageRow35 (c : Ctx) : List Byte :=
  (List.range 8).flatMap (fun i => toBytes 16 (tget 0 i c.d).toNat) ++
    [c.stat.fpstat, c.stat.optstat, c.stat.rndseed, c.stat.rndctr, c.tr.epc, c.tr.cause, c.tr.emask, c.tr.eaddr,
      c.tr.einfo].flatMap (fun (v : Word) => toBytes 8 v.toNat) ++
    toBytes 8 (b2n c.evt) ++ toBytes 8 c.probe.cfg ++
    toBytes 4 ((List.range 16).foldl (fun a i => a + tget 0 i c.qh * 4 ^ i) 0) ++ toBytes 36 0

/-- Row 40 of an image. -/
def Ctx.imageRow40 (c : Ctx) : List Byte :=
  (List.range 4).flatMap (fun i => toBytes 8 (tget {} i c.colls).word.toNat) ++
    toBytes 8 c.route.word.toNat ++
    toBytes 2 c.route.first ++ toBytes 2 c.route.second ++ toBytes 2 c.route.dropped ++ toBytes 2 0 ++
    (List.range 16).flatMap (fun i => toBytes 2 (tget 0 i c.route.sent)) ++
    (match c.window with
     | some (ident, a) => toBytes 8 a ++ toBytes 8 ident
     | none => toBytes 16 0) ++
    toBytes 160 0

/-- The 41 rows of a context's image (R346). -/
def Ctx.image (c : Ctx) : List Byte :=
  (List.range 32).flatMap (fun i => toBytes 256 (tget 0 i c.regs.v).toNat) ++
    (List.range 64).flatMap (fun i => toBytes 8 (if i = 0 then 0 else (tget 0 i c.regs.x).toNat)) ++
    toBytes 8 c.predWord ++
    (List.range 16).flatMap (fun i => toBytes 8 (if i = 0 then 2 ^ 64 - 1 else (tget 0 i c.regs.m).toNat)) ++
    toBytes 120 0 ++ c.imageRow35 ++
    (List.range 16).flatMap (fun i => (tget {} i c.streams).imageBytes) ++ c.imageRow40

/-! ## CTXSAVE (R346) -/

/-- Whether a context has a held operation, its fault taken or pending. -/
def Ctx.hasHeld (c : Ctx) : Bool := c.held.isSome || c.pend.any fun f => f.held.isSome

/-- The entries of the pages of an image, or the first that faults. -/
def State.imagePages (s : State) (u ea : Nat) : List Nat :=
  (List.range ((ea + imageBytes - 1) / 2 ^ 21 - ea / 2 ^ 21 + 1)).map fun i =>
    (s.pte u ((ea / 2 ^ 21 + i) * 2 ^ 21)).getD 0

/-- The stacks to which a save writes its image. -/
def Save.onStacks (v : Save) : List Nat := (v.pages.filter fun e => !pteLp e).map pteStack

/-- The longest that a deadline may lie after a request, in clk: 10 ms (R361). -/
def deferBound : Nat := 9400000

/-- A request that is refused: RATESTAT shows BUSY, and STKRATE reads its old value (R361). -/
def State.refuseRate (s : State) (n old : Nat) : State :=
  ({ s with
     rates := tput .idle n .idle s.rates
     ctl := { s.ctl with stkrate := setField2 s.ctl.stkrate n old } } : State).showRate n 3

/-- The saves with a deadline that write an image to a stack, each by its context and the clk of its issue, with the
deadline. -/
def State.savesTo (s : State) (n : Nat) : List ((CtxKey × Nat) × Nat) :=
  s.liveKeys.filterMap fun k => match (s.ctx k).save with
    | some v => if v.onStacks.contains n then v.deadline.map fun d => ((k, v.at_), d) else none
    | none => none

/-- A save with a deadline joins a request made on the same clk; one that had begun its retraining then waits for the saves
under way as well, whose deadlines have passed (R361). -/
def State.joinRate (s : State) (k : CtxKey) (d n : Nat) : State :=
  let join := fun (saves : List (CtxKey × Nat)) (latest since old : Nat) =>
    if since ≠ s.clk then s
    else if since + deferBound < latest then s.refuseRate n old
    else s.setRate n (.deferred (saves ++ [(k, s.clk)]) latest since old)
  match tget .idle n s.rates with
  | .deferred saves t since old => join saves (max t d) since old
  | .retraining _ since old => join (((s.savesTo n).map (·.1)).filter fun e => e.1 != k) d since old
  | .idle => s

/-- Whether a rate request holds the writes of a save: its stack is retraining, or the save was issued after the request
was deferred (R361). -/
def State.rateHolds (s : State) (k : CtxKey) (v : Save) : Bool :=
  v.onStacks.any fun n => match tget .idle n s.rates with
    | .retraining .. => true
    | .deferred saves _ since _ => !saves.contains (k, v.at_) && decide (since < v.at_)
    | .idle => false

/-- The faults of CTXSAVE at issue, and at an evaluation of its stall (R346; DEDUCED, log 28). -/
def State.ctxsaveFault (s : State) (ea : Word) (disc : Bool) : Option TrapInfo :=
  let c := s.me
  match c.save with
  | none =>
    if ea.toNat % 256 ≠ 0 ∨ (!disc ∧ c.hasHeld) then some { code := 10 }
    else (s.writeFault (unitOf s.iss.key) ea.toNat imageBytes).map fun f => { code := f.1, eaddr := word f.2 }
  | some _ =>
    if disc then none
    else (firstFault c.pend).map fun f => { code := 10, eaddr := ea, einfo := word f.srce }

/-- The first evaluation: held operations discarded, the loaders stopped and the buffers emptied (R346 step 1). -/
def State.beginSave (s : State) (ea : Word) (disc dl : Bool) : State :=
  let k := s.iss.key
  let s := if disc then s.discardAll k else s
  let u := unitOf k
  let v : Save :=
    { ea := ea.toNat, at_ := s.clk, step := 0, pages := s.imagePages u ea.toNat,
      deadline := if dl then some (s.clk + s.ctl.savedl.toNat) else none }
  let s := (s.cacheN u ea.toNat imageBytes).mapCtx k fun c =>
    { (if c.stop = .trapped then c else c.stopLoaders.emptyStreams) with save := some v }
  match v.deadline with
  | some d => v.onStacks.eraseDups.foldl (fun s n => s.joinRate k d n) s
  | none => s

/-- Whether the steps 2 and 3 of a save have taken place, and no register that the image holds awaits a result (R42,
R346). -/
def Ctx.quiet (c : Ctx) : Bool :=
  c.xwait.isEmpty && c.vwait.isEmpty && !c.qh.any (fun e => e.2 == 1) && !c.colls.any (fun e => e.2.st == 1) && c.job.isNone

/-- A save moved to a step (DEDUCED, log 28). -/
def State.saveStep (s : State) (v : Save) (n : Nat) : State := s.mapMe fun c => { c with save := some { v with step := n } }

/-- Whether a page of a save lies in a migration window that was open at issue and still is (R208). -/
def State.saveMig (s : State) (k : CtxKey) (v : Save) : Bool :=
  (List.range v.pages.length).any fun i =>
    pteMig (v.pages.getD i 0) && s.inWindow k ((v.ea / 2 ^ 21 + i) * 2 ^ 21)

/-- Step 5: the rows written directly at the memory agents (R346). -/
def State.writeImage (s : State) (k : CtxKey) (v : Save) : State :=
  let l := (s.ctx k).image
  (List.range imageRows).foldl (fun s i =>
    let va := v.ea + 256 * i
    let e0 := v.pages.getD (va / 2 ^ 21 - v.ea / 2 ^ 21) 0
    let e := if pteMig e0 then (s.pte (unitOf k) va).getD e0 else e0
    s.commitBlk (pteByte e va / 256) fullMask (placeBytes 0 ((l.drop (256 * i)).take 256))) s

/-- The stall of CTXSAVE: its steps in order, one to an evaluation (R346). -/
def State.ctxsaveStall (s : State) (ea : Word) (disc dl : Bool) : Option State :=
  let k := s.iss.key
  match s.me.save with
  | none => some (s.beginSave ea disc dl)
  | some v =>
    let s := if disc then s.discardAll k else s
    match v.step with
    | 0 =>
      if s.me.quiet then some ((s.saveStep v 1).startRelease k .ctxsave [] (s.copiesOf k)) else some s
    | 1 => if s.me.releases.any (fun r => r.kind == .ctxsave) then some s else some (s.saveStep v 2)
    | 2 => if s.rateHolds k v || s.saveMig k v then some s else some ((s.writeImage k v).saveStep v 3)
    | _ => none

/-- CTXSAVE: with the image written, ends the share and leaves the context idle (R346). -/
def semCtxsave (base : XReg) (off : BitVec 32) (disc dl : Bool) : Sem :=
  { fault := fun s => s.privFault.or (s.ctxsaveFault (s.ea base off) disc)
    stall := fun s => s.ctxsaveStall (s.ea base off) disc dl
    eff := fun s =>
      let k := s.iss.key
      let s := if disc then s.discardAll k else s
      let s := s.mapCtx k fun c => { c with overrun := false, stopTrap := false, stop := .none, save := none, loaded := false }
      let s := if s.me.share.held then (s.orphan k).endShare k else s.dropWindow k
      (s.idle k).settleRates }
/-- CTXSAVE. -/
def execCtxsave (base : XReg) (off : BitVec 32) (disc dl : Bool) (s : State) : Outcome State Fault Refusal :=
  (semCtxsave base off disc dl).run s

/-! ## CTXLOAD (R347) -/

/-- Bytes [lo, lo + n) of row r of an image. -/
def imgField (l : List Byte) (r lo n : Nat) : Nat := dfield l (256 * r + lo) n

/-- The 64 bytes of stream i. -/
def imgStream (l : List Byte) (i : Nat) : List Byte := (l.drop (256 * 36 + 64 * i)).take 64

/-- Whether the reserved bytes of an image are zero, and its coded fields hold no reserved code (DEDUCED, log 24). -/
def imageOk (l : List Byte) : Bool :=
  decide (imgField l 34 136 120 = 0) && decide (imgField l 35 200 8 < 2) && decide (imgField l 35 220 36 = 0) &&
    decide (imgField l 40 46 2 = 0) && decide (imgField l 40 96 160 = 0) &&
    (List.range 16).all (fun i =>
      let b := imgStream l i
      decide (dfield b 38 2 = 0) && decide (dfield b 52 1 < 2) && decide (dfield b 53 11 = 0)) &&
    (List.range 16).all (fun q => decide (bits (imgField l 35 216 4) (2 * q) 2 % 2 = 0)) &&
    (List.range 4).all fun c => decide (imgField l 40 (8 * c) 8 % 4 ≠ 1)

/-- The bound stream of 64 bytes of an image; an IN stream starts with nothing filled, and an output stream with nothing
to drain. -/
def imgBinding (b : List Byte) : Stream :=
  let x := descStream (b.take 37)
  { x with tail := dfield b 37 1 % x.ns, pos := dfield b 40 8, eb := dfield b 48 4,
           drained := if x.kind = 0 then 0 else dfield b 40 8 }

/-- Whether every saved binding keeps R189 and R190. -/
def State.bindingsOk (s : State) (l : List Byte) : Bool :=
  (List.range 16).all fun i =>
    let b := imgStream l i
    decide (dfield b 52 1 = 0) ||
      (descOk (b.take 37 ++ toBytes 27 0) &&
        (s.rowsFault s.myCore (descStream (b.take 37)).brow (descStream (b.take 37)).ns).isNone)

/-- DADDR and IDENT of an image. -/
def imgDict (l : List Byte) : Nat × Nat := (imgField l 40 80 8, imgField l 40 88 8)

/-- A fault's code and address as trap information. -/
def faultAt (f : Nat × Nat) : TrapInfo := { code := f.1, eaddr := word f.2 }

/-- The checks of CTXLOAD on the image it has read (R347). -/
def State.imageFault (s : State) (l : List Byte) : Option TrapInfo :=
  let k := s.iss.key
  if !imageOk l || !s.bindingsOk l || (s.pinvCfgFault (word (imgField l 35 208 8))).isSome then some { code := 10 }
  else if (imgDict l).1 = 0 then none
  else match s.dictHeader (unitOf k) (imgDict l).1 with
    | .error f => some (faultAt f)
    | .ok (ident, _) =>
      if ident ≠ (imgDict l).2 then some { code := 10 }
      else match s.loadWindow k (imgDict l).1 with
        | .error f => some (faultAt f)
        | .ok _ => none

/-- The registers and fields of an image (R346, R347). -/
def Ctx.ofImage (c : Ctx) (l : List Byte) : Ctx :=
  let sr := fun (i n : Nat) => word (imgField l 35 (128 + 8 * i) 8) &&& srWritable n
  let regs : RegFile :=
    { v := tputN 0 0 ((List.range 32).map fun i => BitVec.ofNat 2048 (imgField l i 0 256)) []
      x := tputN 0 1 ((List.range 63).map fun i => word (imgField l 32 (8 * (i + 1)) 8)) []
      p := tputN false 1 ((List.range 63).map fun i => (word (imgField l 34 0 8)).getLsbD (i + 1)) []
      m := tputN 0 1 ((List.range 15).map fun i => word (imgField l 34 (8 + 8 * (i + 1)) 8)) [] }
  let streams := (List.range 16).map fun i =>
    let b := imgStream l i
    if dfield b 52 1 = 0 then ({} : Stream) else imgBinding b
  let cfg := imgField l 35 208 8
  let colls := (List.range 4).map fun i =>
    let w := imgField l 40 (8 * i) 8
    if w % 4 = 0 then ({} : CollSlot) else { st := w % 4, status := word w }
  let rw := imgField l 40 32 8
  { c with
    regs := regs
    d := tputN 0 0 ((List.range 8).map fun i => BitVec.ofNat 128 (imgField l 35 (16 * i) 16)) []
    stat := { fpstat := sr 0 0x010, optstat := sr 1 0x011, rndseed := sr 2 0x012, rndctr := sr 3 0x013 }
    tr := { epc := sr 4 0x021, cause := sr 5 0x020, emask := sr 6 0x022, eaddr := sr 7 0x023, einfo := sr 8 0x024 }
    evt := decide (imgField l 35 200 1 % 2 = 1)
    probe := { srow := bits cfg 0 16, nslot := bits cfg 16 11 }
    streams := tputN {} 0 streams []
    qh := tputN 0 0 ((List.range 16).map fun q => bits (imgField l 35 216 4) (2 * q) 2) []
    qres := []
    colls := tputN {} 0 colls []
    route := { busy := rw % 2 == 1, done := bits rw 1 1 == 1, err := bits rw 2 1 == 1, first := imgField l 40 40 2,
               second := imgField l 40 42 2, dropped := imgField l 40 44 2,
               sent := tputN 0 0 ((List.range 16).map fun i => imgField l 40 (48 + 2 * i) 2) [] }
    held := none, wfe := none, wfeSys := none, arrived := none, arrivedSys := none, budget := {}, loaded := true }

/-- The fault of CTXLOAD at issue (R347). -/
def State.ctxloadFault (s : State) (ea : Word) : Option TrapInfo :=
  if ea.toNat % 256 ≠ 0 then some { code := 10 }
  else match s.readVA (unitOf s.iss.key) none ea.toNat imageBytes with
    | .error f => some (faultAt f)
    | .ok (l, _) => s.imageFault l

/-- CTXLOAD: restores a saved context, which stays in system mode and holds no share (R347). -/
def semCtxload (base : XReg) (off : BitVec 32) : Sem :=
  { fault := fun s => s.privFault.or (s.ctxloadFault (s.ea base off))
    eff := fun s =>
      let k := s.iss.key
      let u := unitOf k
      match s.readVA u none (s.ea base off).toNat imageBytes with
      | .error _ => s
      | .ok (l, _) =>
        let s := s.cacheN u (s.ea base off).toNat imageBytes
        let s := if s.me.share.held then (s.orphan k).endShare k else s
        let s := match s.loadWindow k (imgDict l).1 with
          | .ok s' => if (imgDict l).1 = 0 then s.dropWindow k else s'
          | .error _ => s.dropWindow k
        let s := s.mapCore (keyCore k) fun co => { co with code := [] }
        (s.mapCtx k fun c => c.ofImage l).acquire k [] }
/-- CTXLOAD. -/
def execCtxload (base : XReg) (off : BitVec 32) (s : State) : Outcome State Fault Refusal := (semCtxload base off).run s

/-! ## DLOAD (R348) -/

/-- DLOAD: loads a dictionary image into the context's window (R28 to R30, R348). -/
def semDload (base : XReg) (off : BitVec 32) : Sem :=
  { fault := fun s =>
      match s.loadWindow s.iss.key (s.ea base off).toNat with
      | .error f => some (faultAt f)
      | .ok _ => none
    eff := fun s =>
      match s.loadWindow s.iss.key (s.ea base off).toNat with
      | .ok s => s.mapCore s.myCore fun co => { co with code := [] }
      | .error _ => s }
/-- DLOAD. -/
def execDload (base : XReg) (off : BitVec 32) (s : State) : Outcome State Fault Refusal := (semDload base off).run s

/-! ## The host's accesses through BAR2 (R355) -/

/-- The event of an access that cannot complete normally: the kind, and the address. -/
def State.bar2Event (s : State) (code va : Nat) : State := s.event 9 code (va % 2 ^ 32)

/-- Whether a host write to part of a block is dropped: the block is live and cannot be read (R209, R355). -/
def State.bar2Bad (s : State) (p : Nat × Nat) : Bool :=
  match s.pte 8 p.1 with
  | some e =>
    let b := pteByte e p.1 / 256
    !tget false b s.dram.dead && s.blkBad b && p.2 != 256
  | none => false

/-- A host write whose parts all translate: each block is a commit of its own; one that the write replaces in part and
that cannot be read is left, with one event for the access (R204, R355). -/
def State.bar2Write (s : State) (va : Nat) (l : List Byte) : State :=
  let ps := blockPieces va l.length
  let t := (ps.filter fun p => !s.bar2Bad p).foldl (fun t p => t.commitBytes 8 p.1 ((l.drop (p.1 - va)).take p.2)) s
  match ps.find? s.bar2Bad with
  | some p => t.bar2Event 14 p.1
  | none => t

/-- A host access performed, or the state in which it waits for a migration window (R208, R355): whether it is done. -/
def State.bar2Do (s : State) (q : Bar2Req) : Bool × State :=
  match q with
  | .read va n =>
    let done := fun (s : State) (r : Bar2Reply) => (true, { s with bar2Done := s.bar2Done ++ [r] })
    match s.readVA 8 none va n with
    | .ok (l, _) => done (s.cacheN 8 va n) (.data l)
    | .error (code, ea) =>
      done ((s.cacheN 8 va n).bar2Event code ea) (if code = 14 then .abort else .unsupported)
  | .write va l =>
    match s.writeFault 8 va l.length with
    | some (code, ea) => (true, (s.cacheN 8 va l.length).bar2Event code ea)
    | none =>
      match s.migGate .host 8 (pagesOf va l.length) with
      | none => (false, s)
      | some (true, s) => (false, s)
      | some (false, s) => (true, s.bar2Write va l)

/-- The accesses that waited performed in PCIe order, as far as the windows that are open let them (R355). -/
def State.bar2Go (s : State) : List Bar2Req → State
  | [] => { s with bar2 := [] }
  | q :: r =>
    match s.bar2Do q with
    | (true, s) => s.bar2Go r
    | (false, s) => { s with bar2 := q :: r }

/-- A host access that arrives: behind those that wait, and otherwise performed or made to wait (R355). -/
def State.bar2Arrive (s : State) (q : Bar2Req) : State :=
  if s.bar2.isEmpty then
    let r := s.bar2Do q
    if r.1 then r.2 else { r.2 with bar2 := [q] }
  else { s with bar2 := s.bar2 ++ [q] }

/-! ## TLBINV (R202, R208, R348) -/

/-- What the units of all dies and of the IOD hold, less the entries that `keep` denies. -/
def State.dropTlb (s : State) (keep : Nat → Bool) : State :=
  { s with tlb := s.tlb.filterMap fun e =>
      match e.2.filter (fun x => keep x.1) with
      | [] => none
      | l => some (e.1, l) }

/-- Whether the tables show a page in a migration window. -/
def State.walkMig (s : State) (page : Nat) : Bool :=
  decide (page < 2 ^ 35) && (match s.walk (page * 2 ^ 21) with
  | some e => pteMig e
  | none => false)

/-- The pages that a context has staged writes to, and those that hold writes. -/
def State.writtenPages (s : State) : List Nat :=
  (s.migHeld.map (·.page) ++ s.liveKeys.flatMap fun k => stagedPages (s.ctx k).staged).eraseDups

/-- The windows of the pages of a TLBINV open and close at its completion, as the tables then show (R208). -/
def State.setWindows (s : State) (pages : List Nat) : State :=
  { s with migOpen := (s.migOpen.filter fun p => !pages.contains p) ++ pages.filter s.walkMig }

/-- A migration window that the completion of a TLBINV closes: the writes it held are replayed in the order in which they
arrived, the writebacks and host writes here and the others when they are next tried (R208, R355). -/
def State.closeWindows (s : State) (pages : List Nat) : State :=
  let s := s.setWindows pages
  let s := if s.migHeld.isEmpty then s else s.retarget
  let s := ((s.migHeld.map (·.page)).eraseDups).foldl (fun s p => s.settlePage p) s
  s.bar2Go s.bar2

/-- TLBINV: the entries for one page invalidated in every unit (R348). -/
def semTlbinv (xs : XReg) : Sem :=
  { fault := State.privFault
    eff := fun s =>
      let page := (s.rx xs).toNat / 2 ^ 21
      (s.dropTlb fun v => v != page).closeWindows [page] }
/-- TLBINV. -/
def execTlbinv (xs : XReg) (s : State) : Outcome State Fault Refusal := (semTlbinv xs).run s

/-- TLBINV.all: every entry invalidated in every unit (R348). -/
def semTlbinvAll : Sem :=
  { fault := State.privFault
    eff := fun s => (s.dropTlb fun _ => false).closeWindows ((s.migOpen ++ s.writtenPages).eraseDups) }
/-- TLBINV.all. -/
def execTlbinvAll (s : State) : Outcome State Fault Refusal := semTlbinvAll.run s

end Sys2Proof.Machine
end

