-- ==== Sys2Proof/Machine/Platform.lean ====
section
/-! DEFINITION. The host function, bring-up and resets, power, measurements and the Norlys port (R17, R338, R350 to
R361). -/

namespace Sys2Proof.Machine

open Host (Outcome)

/-! ## Control registers (R351) -/

/-- Whether Norlys holds a control (R359). -/
def State.norlysHolds (s : State) (c : NorlysCtl) : Bool := s.norlys.contains c

/-- PCAP written: 600 to 1,800, other values refused (R351). -/
def State.writePcap (s : State) (v : Word) : State :=
  if 600 ≤ v.toNat ∧ v.toNat ≤ 1800 then { s with ctl := { s.ctl with pcap := v } } else s

/-- PTROOT_WRITE: cached translations stay (R202, R351). -/
def execPtrootWrite (val : Word) (s : State) : Outcome State Fault Refusal :=
  .next { s with ctl := { s.ctl with ptroot := val &&& 0xFFFFFF8000 } }

/-- A write of the module control window to a register without a row of its own; none where no such register lies at
the offset (R351; DEDUCED, log 39). -/
def State.writeControl (s : State) (off : Nat) (v : Word) : Option State :=
  match off with
  | 0x008 => some { s with ctl := { s.ctl with syscode := v } }
  | 0x010 => some { s with ctl := { s.ctl with sysdict := v } }
  | 0x018 => some { s with ctl := { s.ctl with savedl := v } }
  | 0x020 => some (if s.norlysHolds .pcap then s else s.writePcap v)
  | 0x028 => some s
  | 0x030 => some { s with ctl := { s.ctl with evbase := v } }
  | 0x038 => some { s with ctl := { s.ctl with evctl := v &&& 0xFFFFFFFFFFFF } }
  | 0x048 => some s
  | _ =>
    if 0x100 ≤ off ∧ off < 0x140 ∧ off % 8 = 0 then
      some (s.mapDie ((off - 0x100) / 8) fun x => { x with period := v })
    else none

/-- Whether a number is a power of two from 16 to 65,536 (R353). -/
def sizeOk (n : Nat) : Bool := (List.range 13).any fun i => n == 2 ^ (4 + i)

/-- A write of a launch queue's block to a register without a row of its own (R353). -/
def State.writeLaunch (s : State) (i off : Nat) (v : Word) : Option State :=
  let x := s.queue i
  match off with
  | 0x00 => some (if x.st = 3 then s.setQueue i { x.unread with base := (v &&& 0xFFFFFFFFFFFFC0).toNat } else s)
  | 0x08 =>
    some (if x.st = 3 && sizeOk (v.toNat % 2 ^ 17) then
      (s.setQueue i { x.unread with size := v.toNat % 2 ^ 17 }).checkOverrun i else s)
  | 0x10 => if i < 64 then none else some s
  | 0x18 | 0x20 | 0x30 | 0x38 => some s
  | _ => none

/-- A write of a Locket stage record (R245). A base or size that is no multiple of 2 MiB is stored and used as written
(DESIGN CHOICE, log 46). -/
def State.writeLocket (s : State) (v : Nat) (off : Nat) (val : Word) : Option State :=
  let set := fun (f : LocketStage → LocketStage) => some { s with locket := tmod {} v f s.locket }
  match off with
  | 0 => set fun x => { x with hbase := val }
  | 8 => set fun x => { x with hsize := val }
  | 16 => set fun x => { x with lbase := val }
  | 24 => set fun x => { x with lsize := val }
  | 32 | 40 | 48 | 56 => some s
  | _ => none

/-- A host write to a BAR0 register without a row of its own (R350 to R353). -/
def State.writeBar0 (s : State) (off : Nat) (v : Word) : Option State :=
  if off < 0x1000 then s.writeControl off v
  else if off = 0x1018 ∨ off = 0x1020 then some s
  else if 0x10000 ≤ off ∧ off < 0x12000 then s.writeLaunch ((off - 0x10000) / 64) (off % 64) v
  else if 0x41000 ≤ off ∧ off < 0x41200 then s.writeLocket ((off - 0x41000) / 64) (off % 64) v
  else if 0x70000 ≤ off ∧ off < 0x70800 ∧ off % 8 = 0 then
    some { s with acl := tput 0 ((off - 0x70000) / 8) (v &&& 0x8000000FFFFFFFFF) s.acl }
  else if off = 0x80000 ∨ (0x80008 ≤ off ∧ off < 0x80028 ∧ off % 8 = 0) then some s
  else none

/-- REGISTER_WRITE (R350). -/
def execRegisterWrite (off : BitVec 24) (val : Word) (s : State) : Outcome State Fault Refusal :=
  match s.writeBar0 off.toNat val with
  | some s => .next s
  | none => .refused .notEnabled

/-! ## Host reads of registers (R7, R350 to R354, R357, R358) -/

/-- A register of the module control window (R351). -/
def State.readControl (s : State) (off : Nat) : Option Word :=
  match off with
  | 0x000 => some s.ctl.ptroot
  | 0x008 => some s.ctl.syscode
  | 0x010 => some s.ctl.sysdict
  | 0x018 => some s.ctl.savedl
  | 0x020 => some s.ctl.pcap
  | 0x028 => some s.ctl.pstat
  | 0x030 => some s.ctl.evbase
  | 0x038 => some s.ctl.evctl
  | 0x040 => some s.ctl.stkrate
  | 0x048 => some s.ctl.ratestat
  | _ => if 0x100 ≤ off ∧ off < 0x140 ∧ off % 8 = 0 then some (s.die ((off - 0x100) / 8)).period else none

/-- A register of the torus window (R352). -/
def State.readTorus (s : State) (off : Nat) : Option Word :=
  match off with
  | 0x000 => some s.torus.dims
  | 0x008 => some s.torus.coord
  | 0x010 => some s.torus.porten
  | 0x018 => some s.torus.portstat
  | 0x020 => some s.torus.cfgerr
  | _ =>
    if 0x100 ≤ off ∧ off < 0x180 ∧ off % 8 = 0 then
      let x := s.ring ((off - 0x100) / 32)
      some (match (off - 0x100) % 32 / 8 with
        | 0 => x.w0 | 1 => x.w1 | 2 => x.w2 | _ => x.next.setWidth 64)
    else none

/-- The status word of a launch queue (R273). -/
def LaunchQ.status (x : LaunchQ) : Word := word (x.st + 2 ^ 8 * x.why.toNat + 2 ^ 40 * x.errc)

/-- A register of a launch queue's block; QCTL is write-only and reads zero (R7, R353). -/
def LaunchQ.read (x : LaunchQ) (off : Nat) : Option Word :=
  match off with
  | 0x00 => some (word x.base)
  | 0x08 => some (word x.size)
  | 0x10 => some (x.wp.setWidth 64)
  | 0x18 => some (x.rp.setWidth 64)
  | 0x20 => some x.status
  | 0x28 | 0x30 | 0x38 => some 0
  | _ => none

/-- A word of a Locket stage record (R245). -/
def LocketStage.read (x : LocketStage) (off : Nat) : Option Word :=
  match off with
  | 0 => some x.hbase
  | 8 => some x.hsize
  | 16 => some x.lbase
  | 24 => some x.lsize
  | 32 | 40 | 48 | 56 => some 0
  | _ => none

/-- Word i of a channel record (R291). -/
def ChanEnd.word (e : ChanEnd) (i : Nat) : Word := match i with | 0 => e.w0 | 1 => e.w1 | 2 => e.w2 | _ => 0

/-- What a host read of 8 bytes of BAR0 gives (R7, R350); none where no register lies. R350 and R357 give only the windows
of the readiness map and of the measurement slots: FUNCREADY at 0x80000 and the map's four words at 0x80008 to 0x80020, and
slot s at 48 s of its window, are the model's choice (DESIGN CHOICE, log 17). -/
def State.readBar0 (s : State) (off : Nat) : Option Word :=
  let w := off % 2 ^ 12
  if off % 8 ≠ 0 then none
  else if off < 0x1000 then s.readControl off
  else if off < 0x2000 then s.readTorus w
  else if 0x10000 ≤ off ∧ off < 0x12000 then (s.queue ((off - 0x10000) / 64)).read (off % 64)
  else if 0x20000 ≤ off ∧ off < 0x40000 then some (tget 0 ((off - 0x20000) / 8) s.groupMap)
  else if 0x40000 ≤ off ∧ off < 0x40800 then some (tget 0 (w % 256 / 8) (s.stage (w / 256)).cfg)
  else if 0x41000 ≤ off ∧ off < 0x41200 then (tget ({} : LocketStage) (w / 64) s.locket).read (off % 64)
  else if 0x42000 ≤ off ∧ off < 0x42800 then some ((tget 0 (w / 8) s.groupMask).setWidth 64)
  else if 0x50000 ≤ off ∧ off < 0x52000 then some ((s.chEnd (BitVec.ofNat 8 ((off - 0x50000) / 32))).word (off % 32 / 8))
  else if 0x60000 ≤ off ∧ off < 0x61000 then
    let e := s.expert (w / 16)
    some (word (if off % 16 = 0 then e.rbase else e.cap + 65536 * e.erows))
  else if 0x70000 ≤ off ∧ off < 0x70800 then some (tget 0 (w / 8) s.acl)
  else if off = 0x80000 then some s.funcready
  else if 0x80008 ≤ off ∧ off < 0x80028 then
    some (word ((List.range 64).foldr (fun i a => 2 * a + b2n (tget false (8 * (off - 0x80008) + i) s.clReady)) 0))
  else if 0x90000 ≤ off ∧ off < 0x90300 then some (word (bits (tget 0 (w / 48) s.measures).toNat (8 * (w % 48)) 64))
  else none

/-! ## The group table (R268, R354) -/

/-- GROUP_BITMAP_WRITE: refused as a whole where it would place a core in a fifth group. -/
def execGroupBitmapWrite (g : BitVec 8) (word : BitVec 6) (val : Word) (s : State) : Outcome State Fault Refusal :=
  let fifth := (List.range 64).any fun i =>
    val.getLsbD i &&
      decide (4 ≤ ((s.coreGroups (BitVec.ofNat 12 (64 * word.toNat + i))).filter (· != g.toNat)).length)
  if fifth then .next s
  else .next { s with groupMap := tput 0 (64 * g.toNat + word.toNat) val s.groupMap }

/-- GROUP_CTXMASK_WRITE. -/
def execGroupCtxmaskWrite (g : BitVec 8) (val : Word) (s : State) : Outcome State Fault Refusal :=
  .next { s with groupMask := tput 0 g.toNat (val.setWidth 4) s.groupMask }

/-! ## Accesses through BAR2 (R350, R355) -/

/-- BAR2_READ. -/
def execBar2Read (va : Word) (len : Nat) (s : State) : Outcome State Fault Refusal :=
  .next (s.bar2Arrive (.read va.toNat len))

/-- BAR2_WRITE. -/
def execBar2Write (va : Word) (data : List Byte) (s : State) : Outcome State Fault Refusal :=
  .next (s.bar2Arrive (.write va.toNat data))

/-! ## The data rates of the stacks (R361) -/

/-- A rate request for a stack: refused, deferred, or its retraining begins, as it does at once where the latest deadline
has passed (R361); one that finds another deferred goes with that deferral (DEDUCED, log 39). -/
def State.rateRequest (s : State) (n rate : Nat) : State :=
  let old := s.ctl.stkrate.toNat / 4 ^ n % 4
  if rate = 3 ∨ rate = old then s
  else
    let saves := s.savesTo n
    let latest := saves.foldl (fun a e => max a e.2) 0
    let t := { s with ctl := { s.ctl with stkrate := setField2 s.ctl.stkrate n rate } }
    if !saves.isEmpty && decide (s.clk + deferBound < latest) then s.showRate n 3
    else match tget .idle n s.rates with
      | .deferred .. => t
      | _ =>
        if saves.isEmpty || decide (latest ≤ s.clk) then t.setRate n (.retraining (s.clk + retrainClk) s.clk old)
        else t.setRate n (.deferred (saves.map (·.1)) latest s.clk old)

/-- The requests of a write of STKRATE. -/
def State.writeStkrate (s : State) (v : Word) : State :=
  (List.range 8).foldl (fun s n => s.rateRequest n (v.toNat / 4 ^ n % 4)) s

/-- STKRATE_WRITE by the host, refused while Norlys holds the rates (R359, R361). -/
def execStkrateWrite (val : Word) (s : State) : Outcome State Fault Refusal :=
  .next (if s.norlysHolds .stkrate then s else s.writeStkrate val)

/-- STACK_RETRAIN_DONE. -/
def execStackRetrainDone (stack : BitVec 3) (s : State) : Outcome State Fault Refusal :=
  match tget .idle stack.toNat s.rates with
  | .retraining t _ _ => if t ≤ s.clk then .next (s.setRate stack.toNat .idle) else .refused .notEnabled
  | _ => .refused .notEnabled

/-- SAVE_DEADLINE: the latest deadline passes, and the deferred retraining starts. -/
def execSaveDeadline (stack : BitVec 3) (s : State) : Outcome State Fault Refusal :=
  match tget .idle stack.toNat s.rates with
  | .deferred _ t since old =>
    if t ≤ s.clk then .next (s.setRate stack.toNat (.retraining (s.clk + retrainClk) since old)) else .refused .notEnabled
  | _ => .refused .notEnabled

/-! ## The governor (R356) -/

/-- GOVERNOR_UPDATE: every 940 clk the duty is set, and a throttled interval is counted. -/
def execGovernorUpdate (duty : BitVec 7) (s : State) : Outcome State Fault Refusal :=
  let d := duty.toNat
  if s.clk % 940 ≠ 0 ∨ s.governed = some s.clk ∨ 64 < d then .refused .notEnabled
  else
    let n := bits s.ctl.pstat.toNat 32 32
    let n := if d < 64 then min (n + 1) (2 ^ 32 - 1) else n
    .next { s with duty := d, governed := some s.clk, ctl := { s.ctl with pstat := word (d + 2 ^ 32 * n) } }

/-! ## Measured firmware (R358) -/

/-- Whether a number is a prime. -/
def isPrime (n : Nat) : Bool := decide (1 < n) && (List.range n).all fun d => decide (d < 2) || n % d != 0

/-- The first 80 primes. -/
def shaPrimes : List Nat := (List.range 410).filter isPrime

/-- The first 64 bits of the fraction of the k-th root of a number below 2^9, bit by bit. -/
def rootFraction (k p : Nat) : Word :=
  word ((List.range 70).foldl (fun r i =>
    let c := r + 2 ^ (69 - i)
    if c ^ k ≤ p * 2 ^ (64 * k) then c else r) 0)

/-- The exclusive or of rotations to the right. -/
def xorRots (l : List Nat) (x : Word) : Word := l.foldl (fun a n => a ^^^ x.rotateRight n) 0

/-- The next word of a message schedule that is kept with its newest word first. -/
def shaNext (w : List Word) : Word :=
  let near := w.getD 1 0
  let far := w.getD 14 0
  (xorRots [19, 61] near ^^^ (near >>> 6)) + w.getD 6 0 + (xorRots [1, 8] far ^^^ (far >>> 7)) + w.getD 15 0

/-- The 80 words of the schedule of a block, the oldest first. -/
def shaWords (block : List Word) : List Word :=
  ((List.range 64).foldl (fun w _ => shaNext w :: w) block.reverse).reverse

/-- A round, on the history of the two running words with its newest pair first, for the sum of a word of the schedule and
its constant. -/
def shaStep (h : List (Word × Word)) (kw : Word) : List (Word × Word) :=
  let at_ := fun (i : Nat) => h.getD i (0, 0)
  let e := (at_ 0).2
  let pick := ((at_ 1).2 &&& e) ||| ((at_ 2).2 &&& ~~~e)
  let most := ((at_ 0).1 &&& ((at_ 1).1 ||| (at_ 2).1)) ||| ((at_ 1).1 &&& (at_ 2).1)
  let t := (at_ 3).2 + xorRots [14, 18, 41] e + pick + kw
  (t + xorRots [28, 34, 39] (at_ 0).1 + most, (at_ 3).1 + t) :: h

/-- The eight words of a chaining value after a block. -/
def shaBlock (v block : List Word) : List Word :=
  let keys := shaPrimes.map (rootFraction 3)
  let start := (List.range 4).map fun i => (v.getD i 0, v.getD (4 + i) 0)
  let h := ((shaWords block).zip keys).foldl (fun h e => shaStep h (e.1 + e.2)) start
  ((h.take 4).map (·.1) ++ (h.take 4).map (·.2)).zipIdx.map fun e => e.1 + v.getD e.2 0

/-- SHA-384 (PRESUMED, log 17): the constants are fractions of roots of primes; the message is padded to blocks of 128
bytes, its length in bits last. -/
def sha384 (m : List Byte) : List Byte :=
  let pad := m ++ [0x80] ++ List.replicate ((239 - m.length % 128) % 128) 0 ++ (toBytes 16 (8 * m.length)).reverse
  let words := fun (b : Nat) => (List.range 16).map fun i => word (ofBytes ((pad.drop (128 * b + 8 * i)).take 8).reverse)
  let first := ((shaPrimes.drop 8).take 8).map (rootFraction 2)
  (((List.range (pad.length / 128)).foldl (fun v b => shaBlock v (words b)) first).take 6).flatMap fun v =>
    (toBytes 8 v.toNat).reverse

/-- A slot extended with a digest; byte i of either lies at bits [8i + 7 : 8i] (R358). -/
def extendSlot (slot digest : BitVec 384) : BitVec 384 :=
  BitVec.ofNat 384 (ofBytes (sha384 (toBytes 48 slot.toNat ++ toBytes 48 digest.toNat)))

/-- A measurement slot extended. -/
def State.extend (s : State) (slot : Nat) (digest : BitVec 384) : State :=
  { s with measures := tmod 0 slot (fun v => extendSlot v digest) s.measures }

/-- MEASUREMENT_EXTEND: system software extends one of slots 5 to 15 (R358). -/
def execMeasurementExtend (slot : BitVec 4) (digest : BitVec 384) (s : State) : Outcome State Fault Refusal :=
  if slot.toNat < 5 then .refused .notEnabled else .next (s.extend slot.toNat digest)

/-- Bytes of global memory as the boot ROM reads them; none where they cannot be read. -/
def State.bootBytes (s : State) (u a n : Nat) : List Byte :=
  match s.readVA u none a n with | .ok (l, _) => l | .error _ => []

/-- The digest of firmware stage 0 to 4: that of the firmware is a free value, and stage 4 is the system dictionary and the
trap vector table as they stand at SYSDICT and SYSCODE, read through a translation unit (R338, R358; PRESUMED, log 17). -/
def State.stageDigest (s : State) (u slot : Nat) : BitVec 384 :=
  if slot < 4 then BitVec.ofNat 384 (Config.firmwareDigest slot)
  else
    let a := s.ctl.sysdict.toNat
    let n := match s.dictHeader u a with | .ok (_, n) => n | .error _ => 0
    BitVec.ofNat 384 (ofBytes (sha384 (s.bootBytes u a (64 + 48 * n) ++ s.bootBytes u s.ctl.syscode.toNat (32 * 21))))

/-- Whether a firmware stage has been measured since reset: stage 4 with the bytes that it now has (R358). -/
def State.isMeasured (s : State) (u slot : Nat) : Bool :=
  s.measured.any fun e => e.1 == slot && (decide (slot < 4) || e.2 == s.stageDigest u slot)

/-- The measurement of a firmware stage that has not been measured (R358). -/
def State.measureStage (s : State) (u slot : Nat) : State :=
  if s.isMeasured u slot then s
  else { s.extend slot (s.stageDigest u slot) with measured := s.measured ++ [(slot, s.stageDigest u slot)] }

/-- Firmware stages measured, in order, before they run (R358). -/
def State.measureStages (s : State) (u : Nat) (l : List Nat) : State := l.foldl (fun s i => s.measureStage u i) s

/-- The firmware stage that a function of FUNCREADY runs, for those that become ready on their own: the base-die firmware
of a stack and of a Filigree unit, the IOD firmware of Locket, Clasp and routing (R357, R358). -/
def firmwareOf (bit : Nat) : List Nat :=
  if 8 ≤ bit ∧ bit < 24 then [2] else if 40 ≤ bit ∧ bit < 43 then [1] else []

/-- The boot ROM measures a firmware stage ahead of its run (R358). -/
def State.measure (s : State) (slot : Nat) : Option State :=
  if 5 ≤ slot || s.isMeasured 8 slot then none else some (s.measureStage 8 slot)

/-! ## Readiness and bring-up (R338, R357) -/

/-- Whether a function may become ready or fail in a move of its own (R338, R357): a stack, a Filigree unit, a group of
LPDDR-6 channels, Locket, Clasp, the routing engine, the host link; and of a die that has been brought up its copy channels,
and its DIE bit, which sets only while every cluster is ready. -/
def State.readyFree (s : State) (bit : Nat) (up : Bool) : Bool :=
  let booted := (s.die (bit % 8)).boot == some true
  if bit < 8 then !up || (booted && (List.range 32).all fun i => tget false (32 * bit + i) s.clReady)
  else if bit < 28 then true
  else if 40 ≤ bit ∧ bit < 44 then true
  else decide (48 ≤ bit) && decide (bit < 56) && (booted || !up)

/-- FUNCTION_READY: a function becomes ready, its firmware having been measured, or fails (R357, R358). -/
def execFunctionReady (bit : BitVec 6) (up : Bool) (s : State) : Outcome State Fault Refusal :=
  if s.readyFree bit.toNat up && s.funcready.getLsbD bit.toNat != up then
    .next ((if up then s.measureStages 8 (firmwareOf bit.toNat) else s).setReady bit.toNat up)
  else .refused .notEnabled

/-- The readiness of a cluster changed, with its event (R357, R360). -/
def State.setCluster (s : State) (cl : Nat) (up : Bool) : State :=
  if tget false cl s.clReady = up then s
  else ({ s with clReady := tput false cl up s.clReady } : State).event 14 cl (b2n up)

/-- One cluster becomes ready, on a die that has been brought up, or fails, and its die is then not ready (R357). -/
def State.moveCluster (s : State) (cl : Nat) (up : Bool) : Option State :=
  if 256 ≤ cl || tget false cl s.clReady == up || (up && (s.die (cl / 32)).boot != some true) then none
  else
    let s := s.setCluster cl up
    some (if up then s else s.setReady (cl / 32) false)

/-- The readiness of the clusters of a die changed. -/
def State.setClusters (s : State) (d : Nat) (up : Bool) : State :=
  (List.range 32).foldl (fun s i => s.setCluster (32 * d + i) up) s

/-- The system dictionary image at SYSDICT, through the translation unit of a die; none where it is rejected or cannot be
read (R338). -/
def State.sysImage (s : State) (d : Nat) : Option (List (BitVec 384)) :=
  let a := s.ctl.sysdict.toNat
  match s.dictHeader d a with
  | .error _ => none
  | .ok (_, n) =>
    if 128 < n then none
    else match s.dictEntries d a n with
      | .error _ => none
      | .ok l => some l

/-- DIE_BRINGUP, once after a reset: the stages of firmware are measured, those bytes of the system dictionary are loaded
and the die's bits are set; or the die stays down until its next reset, with an event (R338, R358, R360; DESIGN CHOICE, log
48). -/
def execDieBringup (die : BitVec 3) (s : State) : Outcome State Fault Refusal :=
  let d := die.toNat
  if (s.die d).boot.isSome then .refused .notEnabled
  else match s.sysImage d with
    | none => .next ((s.mapDie d fun x => { x with boot := some false }).event 15 d 0)
    | some l =>
      let s := (s.measureStages d (List.range 5)).cacheN d s.ctl.sysdict.toNat (64 + 48 * l.length)
      let s := (s.mapDie d fun x => { x with sysDict := l, boot := some true }).setClusters d true
      .next ((s.setReady d true).setReady (48 + d) true)

/-! ## Resets (R360) -/

/-- Every slot of a die's task table is free, its generation incremented, and no successor is decremented. -/
def State.clearTasks (s : State) (d : Nat) : State :=
  (List.range 4096).foldl (fun s k => s.freeSlot d k) s

/-- A share that has been dealt and not started ends without TDONE: it has begun with its deal, so its chunk stays open, to
be dealt again as MODE gives (R265, R279). -/
def State.undeal (s : State) (k : CtxKey) : State :=
  match (s.ctx k).share.deal with
  | none => s
  | some x =>
    (((s.orphanChunk x.task x.entry).mapCtx k fun c => { c with share := { c.share with deal := none } }).unfuse (keyCore k)
      x.fuse).dropShare x.task

/-- The share of a context of a die in reset ends without TDONE (R279, R360). -/
def State.cutShare (s : State) (k : CtxKey) : State :=
  let s := s.dropReleases k
  if (s.ctx k).share.held then (s.orphan k).endShare k else s.undeal k

/-- The address of a remote message's element or row. -/
def MsgKind.addr : MsgKind → Nat
  | .load _ ea => ea
  | .store ea _ _ _ => ea
  | .atomic _ _ _ ea _ _ _ _ => ea
  | .sev _ => 0

/-- A message in flight to a die in reset takes no effect, and faults at its source (R340, R360). -/
def State.bounce (s : State) (m : Msg) : State :=
  let none_ : Option Row := none
  (s.mapCtx m.key fun c => c.takeReply m none_).post m.key
    { code := 8, eaddr := word m.kind.addr, einfo := engInfo 13 0 m.dst.toNat } 13 none

/-- The messages of the other dies' cores to cores of die d that are in flight fail (R360). -/
def State.failMessages (s : State) (d : Nat) : State :=
  s.cores.foldl (fun s e =>
    let n : CoreNo := BitVec.ofNat 12 e.1
    let lost := fun (m : Msg) => coreDie m.dst == d && m.reply.isNone
    let ms := e.2.msgs.filter lost
    if ms.isEmpty then s
    else
      let s := s.mapCore n fun co => { co with msgs := co.msgs.filter fun m => !lost m }
      if e.1 / 512 = d then s else ms.foldl (fun s m => s.bounce m) s) s

/-- A message of a core of a die in reset that goes on to another die: its reply finds no context (R360; DEDUCED, log 31).
-/
def Msg.orphaned (m : Msg) : Option Msg :=
  match m.kind with
  | .load _ _ => none
  | .atomic op w vd ea va vc mask _ => some { m with acq := false, kind := .atomic op w vd ea va vc mask true }
  | _ => some { m with acq := false }

/-- A core of a die in reset: of its contexts that were not idle, the last is the reference context (R97, R360; DEDUCED,
log 31). -/
def State.resetCore (s : State) (n : CoreNo) (c : Core) : Core :=
  let ended := (coreKeys n).filter fun k => (s.ctx k).run != .idle
  { ref := match ended.getLast? with | some k => keyCtx k | none => c.ref
    msgs := c.msgs.filterMap Msg.orphaned, nextIssue := c.nextIssue }

/-- The contexts, cores and scratchpads of a die at their values after module reset; messages to other dies go on. -/
def State.clearDie (s : State) (d : Nat) : State :=
  let other := fun (e : Nat) (per : Nat) => decide (e / per ≠ d)
  { s with
    ctxs := s.ctxs.filter fun e => other e.1 2048
    cores := tmap {} id (s.cores.map fun e =>
      if other e.1 512 then e else (e.1, s.resetCore (BitVec.ofNat 12 e.1) e.2))
    spad := { bytes := s.spad.bytes.filter fun e => other e.1 (512 * spadSize)
              err := s.spad.err.filter fun e => other e.1 (32 * spadSize)
              fused := s.spad.fused.filter fun e => other e.1 32
              lastEnd := s.spad.lastEnd.filter fun e => other e.1 32 } }

/-- What the units hold on behalf of the contexts of a die in reset: replies go to no register, held requests go, and
queries run on but write no rows (R360; DEDUCED, log 31). -/
def State.disown (s : State) (d : Nat) : State :=
  let mine := fun (k : CtxKey) => coreDie (keyCore k) == d
  let x0 := fun (k : CtxKey) (xd : XReg) => if mine k then 0 else xd
  { s with
    stops := s.stops.map fun q => { q with xd := x0 q.key q.xd }
    claspReqs := s.claspReqs.map fun q => { q with xd := x0 q.key q.xd }
    peers := s.peers.map fun q => if q.src = s.ownMod then { q with xd := x0 q.key q.xd } else q
    removals := s.removals.map fun q => { q with xd := x0 q.key q.xd }
    installs := (s.installs.filter fun q => !(q.held && mine q.key)).map fun q => { q with xd := x0 q.key q.xd }
    graphs := s.graphs.map fun e =>
      (e.1, e.2.map fun g => { g with rm := g.rm.map fun r => (r.1, x0 r.1 r.2) })
    dies := s.dies.map fun e =>
      (e.1, { e.2 with arms := e.2.arms.map fun q =>
        { q with reply := q.reply.map fun r => (r.1, x0 r.1 r.2) } })
    ends := s.ends.map fun e => (e.1, if coreDie e.2.core = d then { e.2 with fill := none } else e.2)
    migHeld := s.migHeld.filter fun w => match w.src.owner with | some k => !mine k | none => true
    searches := s.searches.map fun q =>
      if mine q.key then { (if q.held then ({ q with held := false } : Query).finish 6 else q) with mute := true } else q }

/-- A reset of compute die d (R360; DEDUCED, log 31). -/
def State.resetDie (s : State) (d : Nat) : State :=
  let s := ((s.setReady d false).setReady (48 + d) false).setClusters d false
  let s := s.clearTasks d
  let mine := s.liveKeys.filter fun k => coreDie (keyCore k) = d
  let s := mine.foldl (fun s k => s.cutShare k) s
  let s := ((s.failMessages d).clearDie d).disown d
  (s.mapDie d fun x => { x with chans := [], sysDict := [], running := [], ready := [], boot := none }).settleRates

/-- DIE_RESET (R360). -/
def execDieReset (die : BitVec 3) (s : State) : Outcome State Fault Refusal := .next (s.resetDie die.toNat)

/-- LINK_PORT_RESET (R360). -/
def execLinkPortReset (port : BitVec 3) (s : State) : Outcome State Fault Refusal := .next (s.resetPort port.toNat)

/-- A reset of the whole module: what DRAM holds, and what Norlys holds, stays (R360, DESIGN CHOICE, log 18). -/
def State.resetModule (s : State) : State :=
  { State.reset with
    agenda := s.agenda, fresh := s.fresh, powered := s.powered, norlys := s.norlys
    dram := { s.dram with hbm := [] } }

/-- MODULE_RESET (R360). -/
def execModuleReset (s : State) : Outcome State Fault Refusal := .next s.resetModule

/-! ## Power (R17) -/

/-- POWER_INPUT: the 54 V input appears, and the part leaves reset at clk 0 (R17, R96). -/
def execPowerInput (s : State) : Outcome State Fault Refusal :=
  if s.powered then .refused .notEnabled else .next { State.reset with agenda := s.agenda, fresh := s.fresh }

/-- POWER_INPUT_LOSS: the whole module loses power, and what it held (R17, DESIGN CHOICE, log 18). -/
def execPowerInputLoss (s : State) : Outcome State Fault Refusal :=
  if s.powered then .next { State.reset with agenda := s.agenda, fresh := s.fresh, powered := false }
  else .refused .notEnabled

/-! ## The Norlys port (R359) -/

/-- NORLYS_CONTROL_WRITE: Norlys writes a control, which it then holds. -/
def execNorlysControlWrite (c : NorlysCtl) (val : Word) (s : State) : Outcome State Fault Refusal :=
  let s := if s.norlysHolds c then s else { s with norlys := s.norlys ++ [c] }
  .next (match c with
    | .pcap => s.writePcap val
    | .stkrate => s.writeStkrate val
    | .moduleReset => s.resetModule
    | .dieReset d => s.resetDie d.toNat
    | .portReset p => s.resetPort p.toNat)

/-- NORLYS_CONTROL_RELEASE. -/
def execNorlysControlRelease (c : NorlysCtl) (s : State) : Outcome State Fault Refusal :=
  if s.norlysHolds c then .next { s with norlys := s.norlys.filter (· != c) } else .refused .notEnabled

/-! ## Measurements reported (R358) -/

/-- The slots as reported. -/
def State.slots (s : State) : List (BitVec 384) := (List.range 16).map fun i => tget 0 i s.measures

/-- An SPDM request answered (R358). -/
def State.spdmAnswer (s : State) (q : SpdmReq) (slots : List (BitVec 384)) : State :=
  { s with spdm := s.spdm ++ [{ req := q, slots := slots, body := Config.spdmBody s.fresh }], fresh := s.fresh + 1 }

/-- GET_VERSION. -/
def execGetVersion (s : State) : Outcome State Fault Refusal := .next (s.spdmAnswer .getVersion [])
/-- GET_CAPABILITIES. -/
def execGetCapabilities (s : State) : Outcome State Fault Refusal := .next (s.spdmAnswer .getCapabilities [])
/-- NEGOTIATE_ALGORITHMS. -/
def execNegotiateAlgorithms (s : State) : Outcome State Fault Refusal := .next (s.spdmAnswer .negotiateAlgorithms [])
/-- GET_DIGESTS. -/
def execGetDigests (s : State) : Outcome State Fault Refusal := .next (s.spdmAnswer .getDigests [])
/-- GET_CERTIFICATE. -/
def execGetCertificate (s : State) : Outcome State Fault Refusal := .next (s.spdmAnswer .getCertificate [])
/-- CHALLENGE. -/
def execChallenge (s : State) : Outcome State Fault Refusal := .next (s.spdmAnswer .challenge [])
/-- GET_MEASUREMENTS: reports the measurement slots. -/
def execGetMeasurements (s : State) : Outcome State Fault Refusal := .next (s.spdmAnswer .getMeasurements s.slots)

/-! ## Freed regions (R209) -/

/-- SYSTEM_DEAD_MARK: the HBM4E blocks of a region that system software frees are marked dead (R209). -/
def execSystemDeadMark (addr : Word) (len : Nat) (s : State) : Outcome State Fault Refusal :=
  .next (s.markDead 8 addr.toNat len)

end Sys2Proof.Machine
end

