-- ==== Sys2Proof/Machine/Slots.lean ====
section
/-! DEFINITION. The slot instructions as the issue of a bundle sees them: the meaning of each, and the ports and
registers it names (R43, R44). -/

namespace Sys2Proof.Machine

/-- The meaning of each slot instruction; an event stands in no slot. -/
def semOf : Instr → Sem
  | .nop => semNop
  | .add rd rs1 rs2 => semAdd rd rs1 rs2
  | .sub rd rs1 rs2 => semSub rd rs1 rs2
  | .and rd rs1 rs2 => semAnd rd rs1 rs2
  | .or rd rs1 rs2 => semOr rd rs1 rs2
  | .xor rd rs1 rs2 => semXor rd rs1 rs2
  | .andn rd rs1 rs2 => semAndn rd rs1 rs2
  | .shl rd rs1 rs2 => semShl rd rs1 rs2
  | .shr rd rs1 rs2 => semShr rd rs1 rs2
  | .sar rd rs1 rs2 => semSar rd rs1 rs2
  | .rol rd rs1 rs2 => semRol rd rs1 rs2
  | .mul rd rs1 rs2 => semMul rd rs1 rs2
  | .mulh rd rs1 rs2 => semMulh rd rs1 rs2
  | .mulhu rd rs1 rs2 => semMulhu rd rs1 rs2
  | .div rd rs1 rs2 => semDiv rd rs1 rs2
  | .divu rd rs1 rs2 => semDivu rd rs1 rs2
  | .rem rd rs1 rs2 => semRem rd rs1 rs2
  | .remu rd rs1 rs2 => semRemu rd rs1 rs2
  | .min rd rs1 rs2 => semMin rd rs1 rs2
  | .max rd rs1 rs2 => semMax rd rs1 rs2
  | .minu rd rs1 rs2 => semMinu rd rs1 rs2
  | .maxu rd rs1 rs2 => semMaxu rd rs1 rs2
  | .clz rd rs1 => semClz rd rs1
  | .ctz rd rs1 => semCtz rd rs1
  | .popc rd rs1 => semPopc rd rs1
  | .bswap rd rs1 => semBswap rd rs1
  | .extr rd rs1 pos lenm1 => semExtr rd rs1 pos lenm1
  | .ins rd rs1 pos lenm1 => semIns rd rs1 pos lenm1
  | .sext rd rs1 lenm1 => semSext rd rs1 lenm1
  | .zext rd rs1 lenm1 => semZext rd rs1 lenm1
  | .addi rd rs imm => semAddi rd rs imm
  | .andi rd rs imm => semAndi rd rs imm
  | .ori rd rs imm => semOri rd rs imm
  | .xori rd rs imm => semXori rd rs imm
  | .shli rd rs sh => semShli rd rs sh
  | .shri rd rs sh => semShri rd rs sh
  | .sari rd rs sh => semSari rd rs sh
  | .li rd imm => semLi rd imm
  | .lih rd rs imm => semLih rd rs imm
  | .cmp c pd pe rs1 rs2 => semCmp c pd pe rs1 rs2
  | .cmpi c pd pe rs1 imm => semCmpi c pd pe rs1 imm
  | .plog op pd pe pa pb => semPlog op pd pe pa pb
  | .sel rd pc rs1 rs2 => semSel rd pc rs1 rs2
  | .br imm => semBr imm
  | .brx rs imm => semBrx rs imm
  | .call rd imm => semCall rd imm
  | .ret rs => semRet rs
  | .loop rd imm => semLoop rd imm
  | .lds rd base off => semLds rd base off
  | .sts rs base off => semSts rs base off
  | .srget rd sr => semSrget rd sr
  | .srset sr rs => semSrset sr rs
  | .wfe rd timeout => semWfe rd timeout
  | .sev mask => semSev mask
  | .sevRemote rs mask => semSevRemote rs mask
  | .vfadd t vd vs1 vs2 mk => semVfadd t vd vs1 vs2 mk
  | .vfsub t vd vs1 vs2 mk => semVfsub t vd vs1 vs2 mk
  | .vfmul t vd vs1 vs2 mk => semVfmul t vd vs1 vs2 mk
  | .vfma t vd vs1 vs2 vs3 mk => semVfma t vd vs1 vs2 vs3 mk
  | .vfms t vd vs1 vs2 vs3 mk => semVfms t vd vs1 vs2 vs3 mk
  | .vfnma t vd vs1 vs2 vs3 mk => semVfnma t vd vs1 vs2 vs3 mk
  | .vfmin t vd vs1 vs2 mk => semVfmin t vd vs1 vs2 mk
  | .vfmax t vd vs1 vs2 mk => semVfmax t vd vs1 vs2 mk
  | .vfdiv t vd vs1 vs2 mk => semVfdiv t vd vs1 vs2 mk
  | .vfsqrt t vd vs1 mk => semVfsqrt t vd vs1 mk
  | .vfrcp t vd vs1 mk => semVfrcp t vd vs1 mk
  | .vfrsq t vd vs1 mk => semVfrsq t vd vs1 mk
  | .vfexp2 t vd vs1 mk => semVfexp2 t vd vs1 mk
  | .vflog2 t vd vs1 mk => semVflog2 t vd vs1 mk
  | .vfabs t vd vs1 mk => semVfabs t vd vs1 mk
  | .vfneg t vd vs1 mk => semVfneg t vd vs1 mk
  | .vfclass t vd vs1 mk => semVfclass t vd vs1 mk
  | .vadd t vd vs1 vs2 mk => semVadd t vd vs1 vs2 mk
  | .vsub t vd vs1 vs2 mk => semVsub t vd vs1 vs2 mk
  | .vmul t vd vs1 vs2 mk => semVmul t vd vs1 vs2 mk
  | .vmulh t vd vs1 vs2 mk => semVmulh t vd vs1 vs2 mk
  | .vmin t vd vs1 vs2 mk => semVmin t vd vs1 vs2 mk
  | .vminu t vd vs1 vs2 mk => semVminu t vd vs1 vs2 mk
  | .vmax t vd vs1 vs2 mk => semVmax t vd vs1 vs2 mk
  | .vmaxu t vd vs1 vs2 mk => semVmaxu t vd vs1 vs2 mk
  | .vabs t vd vs1 mk => semVabs t vd vs1 mk
  | .vand t vd vs1 vs2 mk => semVand t vd vs1 vs2 mk
  | .vor t vd vs1 vs2 mk => semVor t vd vs1 vs2 mk
  | .vxor t vd vs1 vs2 mk => semVxor t vd vs1 vs2 mk
  | .vandn t vd vs1 vs2 mk => semVandn t vd vs1 vs2 mk
  | .vshl t vd vs1 vs2 mk => semVshl t vd vs1 vs2 mk
  | .vshr t vd vs1 vs2 mk => semVshr t vd vs1 vs2 mk
  | .vsar t vd vs1 vs2 mk => semVsar t vd vs1 vs2 mk
  | .vadds t vd vs1 vs2 mk => semVadds t vd vs1 vs2 mk
  | .vsubs t vd vs1 vs2 mk => semVsubs t vd vs1 vs2 mk
  | .vcmp c t md me vs1 vs2 sel => semVcmp c t md me vs1 vs2 sel
  | .vfcmp c t md me vs1 vs2 sel => semVfcmp c t md me vs1 vs2 sel
  | .mlog op md me ma mb => semMlog op md me ma mb
  | .mcnt xd ma => semMcnt xd ma
  | .mfirst xd ma => semMfirst xd ma
  | .vsel t vd vs1 vs2 mk => semVsel t vd vs1 vs2 mk
  | .vcvt d s rnd vd vs1 mk part => semVcvt d s rnd vd vs1 mk part
  | .vcvtu d s rnd vd vs1 mk part => semVcvtu d s rnd vd vs1 mk part
  | .vcvtq d s rnd vd vs1 vs2 sl mk part => semVcvtq d s rnd vd vs1 vs2 sl mk part
  | .vunpk vd vs1 mk part => semVunpk vd vs1 mk part
  | .vbcast t vd vs1 mk idx => semVbcast t vd vs1 mk idx
  | .vbcastScalar t vd xs mk => semVbcastScalar t vd xs mk
  | .vins t vd xs idx => semVins t vd xs idx
  | .vext t xd vs1 idx => semVext t xd vs1 idx
  | .vperm t vd vs1 vs2 mk => semVperm t vd vs1 vs2 mk
  | .vperm2 t vd vs1 vs2 vs3 mk => semVperm2 t vd vs1 vs2 vs3 mk
  | .vzip hi t vd vs1 vs2 mk => semVzip hi t vd vs1 vs2 mk
  | .vunzip od t vd vs1 vs2 mk => semVunzip od t vd vs1 vs2 mk
  | .vcomp t vd vs1 mk => semVcomp t vd vs1 mk
  | .vexpd t vd vs1 mk => semVexpd t vd vs1 mk
  | .vrotm vd vs1 vs2 mk sh => semVrotm vd vs1 vs2 mk sh
  | .vrotmScalar vd vs1 vs2 mk xs => semVrotmScalar vd vs1 vs2 mk xs
  | .vrsum t vd vs1 mk => semVrsum t vd vs1 mk
  | .vrmax t vd vs1 mk => semVrmax t vd vs1 mk
  | .vrmin t vd vs1 mk => semVrmin t vd vs1 mk
  | .vradd t vd vs1 mk => semVradd t vd vs1 mk
  | .vsort vd vs1 => semVsort vd vs1
  | .vmrg hi vd vs1 vs2 => semVmrg hi vd vs1 vs2
  | .vmsplit vd vs1 vs2 mk => semVmsplit vd vs1 vs2 mk
  | .vadamw t rnd sb xh h g16 => semVadamw t rnd sb xh h g16
  | .vsgdm t rnd sb xh h g16 => semVsgdm t rnd sb xh h g16
  | .vrand t vd mk => semVrand t vd mk
  | .mloadw st set dw sp xm => semMloadw st set dw sp xm
  | .mswap st => semMswap st
  | .mmul st a_ set da rev acc row0 => semMmul st a_ set da rev acc row0
  | .mmulg st a_ set da rev acc row0 vi => semMmulg st a_ set da rev acc row0 vi
  | .mdrain st a_ dO row0 rnd clr q sl => semMdrain st a_ dO row0 rnd clr q sl
  | .mdrainV st a_ vd row0 rnd fmt clr => semMdrainV st a_ vd row0 rnd fmt clr
  | .mzero st a_ => semMzero st a_
  | .mcbook st xs => semMcbook st xs
  | .mdset dn xlo xhi => semMdset dn xlo xhi
  | .mfence => semMfence
  | .mwait st => semMwait st
  | .mstat st xd sel clr => semMstat st xd sel clr
  | .mknot st xs => semMknot st xs
  | .mknotC st xs => semMknotC st xs
  | .mspl st a_ da acc row0 => semMspl st a_ da acc row0
  | .msplb st a_ dg da acc row0 => semMsplb st a_ dg da acc row0
  | .msplg st dg da => semMsplg st dg da
  | .mrefine st => semMrefine st
  | .mgdrain st src xs => semMgdrain st src xs
  | .mgzero st => semMgzero st
  | .ldrow vd base off => semLdrow vd base off
  | .strow vs base off mk => semStrow vs base off mk
  | .ldrowr vd xc xa acq => semLdrowr vd xc xa acq
  | .strowr vs xc xa mk rel => semStrowr vs xc xa mk rel
  | .amo op w64 vd xa va vc mk nr => semAmo op w64 vd xa va vc mk nr
  | .amor op w64 vd xc xa va vc mk nr acq => semAmor op w64 vd xc xa va vc mk nr acq
  | .fence scope => semFence scope
  | .sbind sn base off => semSbind sn base off
  | .sunbind sn => semSunbind sn
  | .sadv sn rs imm => semSadv sn rs imm
  | .swait sn rs imm => semSwait sn rs imm
  | .sstat xd sn sel => semSstat xd sn sel
  | .probe rd rs imm => semProbe rd rs imm
  | .pfill base off => semPfill base off
  | .pwb base off => semPwb base off
  | .pinv base off => semPinv base off
  | .pinvAll => semPinvAll
  | .pinvCfg xs => semPinvCfg xs
  | .phase g => semPhase g
  | .amog op w64 xs base off => semAmog op w64 xs base off
  | .xchain rd xh ch => semXchain rd xh ch
  | .xgath h va nm1 => semXgath h va nm1
  | .xscat h va nm1 => semXscat h va nm1
  | .bwait rd h free => semBwait rd h free
  | .bsetCfg h xs => semBsetCfg h xs
  | .bsetFull h => semBsetFull h
  | .bsetFree h => semBsetFree h
  | .stashc h base off mx8 dead bf16 => semStashc h base off mx8 dead bf16
  | .stashs h base off dead => semStashs h base off dead
  | .stashd h base off => semStashd h base off
  | .stashp h base off => semStashp h base off
  | .stashf h base off => semStashf h base off
  | .stashq rd base off => semStashq rd base off
  | .tarm rd base off own die => semTarm rd base off own die
  | .tdec rs early n => semTdec rs early n
  | .tdone => semTdone
  | .jnext imm => semJnext imm
  | .jprog rs imm => semJprog rs imm
  | .early => semEarly
  | .waitvis => semWaitvis
  | .gbar g => semGbar g
  | .abort rs => semAbort rs
  | .abortSelf => semAbortSelf
  | .abchk => semAbchk
  | .qpush rd xq xa => semQpush rd xq xa
  | .mbpost rd xt stage q => semMbpost rd xt stage q
  | .verget rd xt stage => semVerget rd xt stage
  | .verputRel rd xs stage => semVerputRel rd xs stage
  | .verputPub rd xs stage => semVerputPub rd xs stage
  | .verputAlloc rd stage => semVerputAlloc rd stage
  | .chsend s xt xa xl ch => semChsend s xt xa xl ch
  | .chwin rs ch n => semChwin rs ch n
  | .chstatSnd rd ch => semChstatSnd rd ch
  | .chstatRcv rd ch => semChstatRcv rd ch
  | .chstatErr rd ch clr => semChstatErr rd ch clr
  | .coll rd base off => semColl rd base off
  | .cwait rd xc => semCwait rd xc
  | .route base off => semRoute base off
  | .rstat rd sel => semRstat rd sel
  | .sginst rd base off => semSginst rd base off
  | .sginstRm rd xs => semSginstRm rd xs
  | .sqsub rd base off => semSqsub rd base off
  | .sqwait rd qh => semSqwait rd qh
  | .sqwaitT rd qh => semSqwaitT rd qh
  | .sqcan rd qh => semSqcan rd qh
  | .trap n => semTrap n
  | .brk n => semBrk n
  | .eret => semEret
  | .eretDisc => semEretDisc
  | .ctxsave base off disc dl => semCtxsave base off disc dl
  | .ctxload base off => semCtxload base off
  | .dload base off => semDload base off
  | .tlbinv xs => semTlbinv xs
  | .tlbinvAll => semTlbinvAll
  | .stop rd xs => semStop rd xs
  | _ => semNop

/-- What an instruction takes and names (R43, R44): scalar sources and destinations, vector sources and destinations,
predicate and mask destinations, and the scratchpad row port. -/
structure Ports where
  xr : List XReg := []
  xw : List XReg := []
  srcs : List VSrc := []
  /-- Heads read without a source field of their own (R124). -/
  heads : List SReg := []
  vw : List VReg := []
  pw : List XReg := []
  mw : List MReg := []
  row : Bool := false
  /-- Scalar registers written without a destination field: they wait on a result (R42), and take no port and no part in a
  double write (R43, R44; DESIGN CHOICE, log 40). -/
  imp : List XReg := []
  /-- Every scalar and vector register is written (R347). -/
  all : Bool := false
  /-- System registers written (R94). -/
  sr : List Nat := []
  deriving DecidableEq, Repr

/-- The ports of each instruction (R43, R83, R89, R115, R120, R137, R178, R179, R212, R256, R290, R316, R344). -/
def portsOf : Instr → Ports
  | .add rd a b | .sub rd a b | .and rd a b | .or rd a b | .xor rd a b | .andn rd a b | .shl rd a b | .shr rd a b
  | .sar rd a b | .rol rd a b | .mul rd a b | .mulh rd a b | .mulhu rd a b | .div rd a b | .divu rd a b | .rem rd a b
  | .remu rd a b | .min rd a b | .max rd a b | .minu rd a b | .maxu rd a b | .sel rd _ a b => { xr := [a, b], xw := [rd] }
  | .ins rd a _ _ => { xr := [a, rd], xw := [rd] }
  | .clz rd a | .ctz rd a | .popc rd a | .bswap rd a | .extr rd a _ _ | .sext rd a _ | .zext rd a _ | .addi rd a _
  | .andi rd a _ | .ori rd a _ | .xori rd a _ | .shli rd a _ | .shri rd a _ | .sari rd a _ | .lih rd a _ | .lds rd a _
  | .probe rd a _ | .xchain rd a _ | .stop rd a | .mbpost rd a _ _ | .verget rd a _ | .verputRel rd a _
  | .verputPub rd a _ | .cwait rd a | .sginstRm rd a => { xr := [a], xw := [rd] }
  | .li rd _ | .call rd _ | .srget rd _ | .wfe rd _ | .mcnt rd _ | .mfirst rd _ | .mstat _ rd _ _ | .sstat rd _ _
  | .bwait rd _ _ | .verputAlloc rd _ | .chstatSnd rd _ | .chstatRcv rd _ | .chstatErr rd _ _ | .rstat rd _
  | .sqwait rd _ | .sqwaitT rd _ | .sqcan rd _ => { xw := [rd] }
  | .loop rd _ => { xr := [rd], xw := [rd] }
  | .cmp _ pd pe a b => { xr := [a, b], pw := [pd, pe] }
  | .cmpi _ pd pe a _ => { xr := [a], pw := [pd, pe] }
  | .plog _ pd pe _ _ => { pw := [pd, pe] }
  | .srset sr a => { xr := [a], sr := [sr.toNat] }
  | .jnext _ => { imp := [1, 2, 3] }
  | .ctxload a _ => { xr := [a], row := true, all := true }
  | .brx a _ | .ret a | .sevRemote a _ | .mloadw _ _ _ _ a
  | .mcbook _ a | .mknot _ a | .mknotC _ a | .mgdrain _ _ a | .sadv _ a _ | .swait _ a _ | .pfill a _ | .pwb a _
  | .pinv a _ | .pinvCfg a | .bsetCfg _ a | .tdec a _ _ | .jprog a _ | .abort a | .chwin a _ _ | .dload a _
  | .tlbinv a => { xr := [a] }
  | .vadamw _ _ sb a _ _ => { xr := [a], heads := [sb, sb + 1, sb + 2, sb + 3] }
  | .vsgdm _ _ sb a _ _ => { xr := [a], heads := [sb, sb + 1, sb + 2] }
  | .sts a b _ | .mdset _ a b | .amog _ _ a b _ => { xr := [a, b] }
  | .sbind _ a _ | .stashc _ a _ _ _ _ | .stashs _ a _ _ | .stashd _ a _ | .stashp _ a _ | .stashf _ a _ | .route a _
  | .ctxsave a _ _ _ => { xr := [a], row := true }
  | .stashq rd a _ | .tarm rd a _ _ _ | .coll rd a _ | .sginst rd a _ | .sqsub rd a _ =>
    { xr := [a], xw := [rd], row := true }
  | .qpush rd a b => { xr := [a, b], xw := [rd], row := true }
  | .chsend _ a b c _ => { xr := [a, b, c] }
  | .vfadd _ vd a b _ | .vfsub _ vd a b _ | .vfmul _ vd a b _ | .vfmin _ vd a b _ | .vfmax _ vd a b _
  | .vfdiv _ vd a b _ | .vadd _ vd a b _ | .vsub _ vd a b _ | .vmul _ vd a b _ | .vmulh _ vd a b _ | .vmin _ vd a b _
  | .vminu _ vd a b _ | .vmax _ vd a b _ | .vmaxu _ vd a b _ | .vand _ vd a b _ | .vor _ vd a b _ | .vxor _ vd a b _
  | .vandn _ vd a b _ | .vshl _ vd a b _ | .vshr _ vd a b _ | .vsar _ vd a b _ | .vadds _ vd a b _
  | .vsubs _ vd a b _ | .vsel _ vd a b _ | .vperm _ vd a b _ | .vzip _ _ vd a b _ | .vunzip _ _ vd a b _
  | .vcvtq _ _ _ vd a b _ _ _ | .vrotm vd a b _ _ | .vmsplit vd a b _ => { srcs := [a, b], vw := [vd] }
  | .vrotmScalar vd a b _ x => { xr := [x], srcs := [a, b], vw := [vd] }
  | .vfma _ vd a b c _ | .vfms _ vd a b c _ | .vfnma _ vd a b c _ | .vperm2 _ vd a b c _ =>
    { srcs := [a, b, c], vw := [vd] }
  | .vfsqrt _ vd a _ | .vfrcp _ vd a _ | .vfrsq _ vd a _ | .vfexp2 _ vd a _ | .vflog2 _ vd a _ | .vfabs _ vd a _
  | .vfneg _ vd a _ | .vfclass _ vd a _ | .vabs _ vd a _ | .vcvt _ _ _ vd a _ _ | .vcvtu _ _ _ vd a _ _
  | .vunpk vd a _ _ | .vbcast _ vd a _ _ | .vcomp _ vd a _ | .vexpd _ vd a _ | .vrsum _ vd a _ | .vrmax _ vd a _
  | .vrmin _ vd a _ | .vradd _ vd a _ => { srcs := [a], vw := [vd] }
  | .vcmp _ _ md me a b _ | .vfcmp _ _ md me a b _ => { srcs := [a, b], mw := [md, me] }
  | .mlog _ md me _ _ => { mw := [md, me] }
  | .vbcastScalar _ vd x _ => { xr := [x], vw := [vd] }
  | .vins _ vd x _ => { xr := [x], srcs := [.v vd], vw := [vd] }
  | .vext _ xd a _ => { xw := [xd], srcs := [a] }
  | .vsort vd a => { srcs := [.v a, .v (a + 1)], vw := [vd, vd + 1] }
  | .vmrg _ vd a b => { srcs := [.v a, .v (a + 1), .v b, .v (b + 1)], vw := [vd, vd + 1] }
  | .vrand _ vd _ => { vw := [vd] }
  | .mmulg _ _ _ _ _ _ _ a => { srcs := [a] }
  | .mdrainV _ _ vd _ _ _ _ => { vw := [vd] }
  | .ldrow vd a _ => { xr := [a], vw := [vd], row := true }
  | .strow v a _ _ => { xr := [a], srcs := [v], row := true }
  | .ldrowr vd a b _ => { xr := [a, b], vw := [vd] }
  | .strowr v a b _ _ => { xr := [a, b], srcs := [v] }
  | .amo op _ vd a va vc _ nr =>
    { xr := [a], srcs := .v va :: (if op = .cas then [.v vc] else []), vw := if nr then [] else [vd], row := true }
  | .amor op _ vd a b va vc _ nr _ =>
    { xr := [a, b], srcs := .v va :: (if op = .cas then [.v vc] else []), vw := if nr then [] else [vd] }
  | .xgath _ v _ | .xscat _ v _ => { srcs := [.v v] }
  | _ => {}

/-- The vector registers that an instruction reads. -/
def Ports.vr (p : Ports) : List VReg := p.srcs.filterMap fun v => match v with | .v r => some r | .head _ _ => none

/-- The scalar reads and writes that count: those of a register other than x0. -/
def Ports.xReads (p : Ports) : List XReg := p.xr.filter (· != 0)
/-- The scalar writes that count. -/
def Ports.xWrites (p : Ports) : List XReg := p.xw.filter (· != 0)

end Sys2Proof.Machine
end

