-- ==== Sys2Proof/Machine/Bundle.lean ====
section
/-! DEFINITION. The issue of a bundle: fetch, legality, blocking, stalls, faults and commit (R21 to R27, R33, R40 to R46,
R90, R91, R97, R98, R356). -/

namespace Sys2Proof.Machine

open Host (Outcome)

/-! ## Fetch (R21 to R24, R91) -/

/-- The code word at a PC; none where its block is not resident. -/
def State.codeWord (s : State) (n : CoreNo) (pc : Nat) : Option Nat :=
  ((s.core n).code.find? fun b => b.block == pc / 128).map fun b => b.data.toNat / 2 ^ (16 * (pc % 128)) % 2 ^ 16

/-- The entries that index words of a context select (R29, R338). -/
def State.entries (s : State) (k : CtxKey) : List (BitVec 384) :=
  let c := s.ctx k
  if c.sys then (s.die (coreDie (keyCore k))).sysDict
  else match c.window with
    | none => []
    | some (ident, _) => match (s.core (keyCore k)).dict.find? (fun w => w.ident == ident) with
      | some w => w.entries
      | none => []

/-- What fetch finds at a PC. -/
inductive Fetched where
  /-- A block that is not resident. -/
  | wait (block : Nat)
  | trap (t : TrapInfo)
  | bundle (b : BitVec 384) (pcn : BitVec 55)
  deriving DecidableEq, Repr

/-- The word at a PC is needed and its block is not resident: the wait for it, or the trap where its read has faulted
(R24, R91). -/
def State.needBlock (s : State) (k : CtxKey) (pc : Nat) (einfo : Word) : Fetched :=
  match (s.ctx k).fetchFault with
  | some (a, cause) =>
    if a / 256 = pc / 128 then .trap { code := cause, eaddr := word (2 * pc), einfo := einfo } else .wait (pc / 128)
  | none => .wait (pc / 128)

/-- The PC of word i of the literal at a PC (R22). -/
def litPc (pc i : Nat) : Nat := (pc + 1 + i) % 2 ^ 55

/-- The bundle that a context would issue next (R21, R22, R27; DEDUCED, log 47). -/
def State.fetch (s : State) (k : CtxKey) : Fetched :=
  let n := keyCore k
  let pc := (s.ctx k).pc
  match s.codeWord n pc.toNat with
  | none => s.needBlock k pc.toNat (word (Config.unreadWord s.fresh % 2 ^ 16))
  | some w =>
    if w < 2 ^ 15 then
      let l := s.entries k
      match l[w]? with
      | some b => .bundle b (pc + 1)
      | none => .trap { code := 3, einfo := word (w + 65536 * l.length) }
    else if w = 0xFFFF then
      match (List.range 24).find? (fun i => (s.codeWord n (litPc pc.toNat i)).isNone) with
      | some i => s.needBlock k (litPc pc.toNat i) 0xFFFF
      | none =>
        .bundle (BitVec.ofNat 384 ((List.range 24).foldr
          (fun i a => (s.codeWord n (litPc pc.toNat i)).getD 0 + 2 ^ 16 * a) 0)) (pc + 25)
    else .trap { code := if w = 0xFFFE then 5 else 4, einfo := word w }

/-! ## Legality (R39, R43 to R45) -/

/-- The slots that take a port, where more uses of it stand in the bundle than it has (R43). -/
def overPort (limit : Nat) (l : List (SlotId × Nat)) : List SlotId :=
  if limit < l.foldl (fun a e => a + e.2) 0 then (l.filter fun e => e.2 != 0).map (·.1) else []

/-- The uses of the head of stream n by an instruction. -/
def Ports.headUses (p : Ports) (n : SReg) : Nat :=
  (p.srcs.filter fun v => match v with | .head sn _ => sn == n | .v _ => false).length

/-- The slots that take part in an exceeded port (R43). -/
def overPorts (l : List (SlotId × Slot)) : List SlotId :=
  let u := fun (f : Ports → Nat) => l.map fun e => (e.1, f (portsOf e.2.instr))
  overPort 6 (u fun p => p.xReads.length) ++ overPort 3 (u fun p => p.xWrites.length) ++
    overPort 4 (u fun p => p.vr.length) ++ overPort 2 (u fun p => p.vw.length) ++
    overPort 1 (u fun p => b2n p.row) ++
    (List.range 16).flatMap fun i => overPort 1 (u fun p => p.headUses (BitVec.ofNat 4 i))

/-- The registers that an instruction names to write, each with its file (R44, R94). -/
def Ports.writes (p : Ports) : List (Nat × Nat) :=
  p.xWrites.map (fun r => (0, r.toNat)) ++ (p.pw.filter (· != 0)).map (fun r => (1, r.toNat)) ++
    p.vw.map (fun r => (2, r.toNat)) ++ (p.mw.filter (· != 0)).map (fun r => (3, r.toNat)) ++ p.sr.map (fun r => (4, r))

/-- Whether two slots stand under one guard and its opposite (R44). -/
def exempt (a b : Slot) : Bool := a.gpred == b.gpred && a.gpred != 0 && a.gneg != b.gneg

/-- Whether a slot takes part in a forbidden double write (R44; log 40). -/
def doubleWrite (l : List (SlotId × Slot)) (e : SlotId × Slot) : Bool :=
  let w := (portsOf e.2.instr).writes
  decide (w.eraseDups.length < w.length) ||
    l.any fun f => f.1 != e.1 && !exempt e.2 f.2 && (portsOf f.2.instr).writes.any fun r => w.contains r

/-- The slots that make a bundle illegal (R43 to R45). -/
def illegalSlots (l : List (SlotId × Slot)) : List SlotId :=
  let ov := overPorts l
  (l.filter fun e => ov.contains e.1 || doubleWrite l e).map (·.1)

/-- A slot mask (R31). -/
def slotMask (l : List SlotId) : Nat := (slotOrder.filter fun x => l.contains x).foldl (fun a x => a + 2 ^ x.bit) 0

/-! ## Evaluation (R33, R40 to R42, R46) -/

/-- Whether a slot is enabled (R33). -/
def slotEnabled (e : Slot) (c : Ctx) : Bool :=
  (if e.gpred = 0 then true else tget false e.gpred.toNat c.regs.p) != e.gneg

/-- Whether a register that a slot reads or writes waits on a result (R42). -/
def Ctx.hazard (c : Ctx) (p : Ports) : Bool :=
  (p.xr ++ p.xw ++ p.imp).any (fun r => c.xwait.contains r) || (p.vr ++ p.vw).any (fun r => c.vwait.contains r) ||
    (p.all && (!c.xwait.isEmpty || !c.vwait.isEmpty))

/-- The heads that the slots name, as they stand (R40, R103). -/
def State.headRows (s : State) (k : CtxKey) (l : List (SlotId × Slot)) : Tab Row :=
  (l.flatMap fun e => headsOf (portsOf e.2.instr).srcs ++ (portsOf e.2.instr).heads).foldl (fun t sn =>
    tput 0 sn.toNat (s.row (keyCore k) ((s.ctx k).stream sn).row) t) []

/-- The operands latched for the slots of a bundle (R40); the heads are read after the context's earlier fused accesses
(R176). -/
def State.latch (s : State) (k : CtxKey) (pcn : BitVec 55) (l : List (SlotId × Slot)) : State :=
  let c := s.ctx k
  { s with iss := { key := k, pcb := c.pc, pcn := pcn, regs := c.regs, heads := (s.flushCtx k).headRows k l, stat := c.stat,
                    tr := c.tr, evt := c.evt } }

/-- The blocks of code that hold the bundle of the present issue: its first word's, and its last word's. -/
def Issue.blocks (i : Issue) : List Nat := [i.pcb.toNat / 128, (i.pcn - 1).toNat / 128].eraseDups

/-- The last blocks of code that a context has issued from, at most 31 (R90). -/
def recentBlocks (new old : List Nat) : List Nat := (new ++ old.filter fun b => !new.contains b).take 31

/-- The commit of a bundle: PC := PCn, and the effects of its slots in order (R40, R88). The WFE record and the arrival of the
present mode end with it (R99, R269). Where a slot A transfer and a JNEXT or PROBE of slot X both set the PC, the one of slot X,
which comes last, stands, on which the spec is silent (DESIGN CHOICE, log 40). -/
def State.commitSlots (s : State) (l : List (SlotId × Sem)) : State :=
  let k := s.iss.key
  let s := s.mapCtx k fun c =>
    { (c.setWfe none).setArrival none with pc := s.iss.pcn, recent := recentBlocks s.iss.blocks c.recent }
  let s := s.mapCore (keyCore k) fun co =>
    { co with paced := (s.clk / 64, if co.paced.1 = s.clk / 64 then co.paced.2 + 1 else 1) }
  l.foldl (fun s e => e.2.eff s) s

/-- The trap at issue of a slot: the X slot is checked as the other slots of its bundle leave the scratchpad (R40, R46). -/
def State.slotFault (s : State) (l : List (SlotId × Sem)) (e : SlotId × Sem) : Option TrapInfo :=
  e.2.fault (if e.1 = .X then (l.filter fun f => f.1 != .X).foldl (fun s f => f.2.first s) s else s)

/-- A bundle that would pass the 64 messages of its core stalls (R183). -/
def State.sendStall (s : State) (l : List (SlotId × Sem)) : Option State :=
  let n := l.foldl (fun a e => a + e.2.sends s) 0
  if n ≠ 0 ∧ 64 < (s.core s.myCore).msgs.length + n then some s else none

/-- The evaluation of the enabled slots of a legal bundle whose operands are ready (R41, R42, R46, R186): a slot that faults
does not block; the X slot alone arrives at a barrier or samples, and only where no other slot blocks (R224, R269,
R272; DEDUCED, log 21). -/
def State.evaluate (s : State) (l : List (SlotId × Sem)) : State :=
  let k := s.iss.key
  if l.any fun e => e.2.hold s then s else
  let faults := l.filterMap fun e => (s.slotFault l e).map fun t => (e.1, t)
  let ok := l.filter fun e => (s.slotFault l e).isNone
  let conds := fun (s : State) => ok.flatMap fun e => e.2.block s
  let park := fun (s : State) => (ok.foldl (fun s e => e.2.onPark s) s).park k (conds s)
  let trap := fun (s : State) => match faults with
    | [] => s
    | e :: _ => issueTrap e.2 (slotMask (faults.map (·.1))) s
  if !((ok.filter fun e => e.1 != .X).flatMap fun e => e.2.block s).isEmpty then park s
  else if !faults.isEmpty && (conds s).isEmpty then trap s
  else match ok.findSome? (fun e => e.2.instead s) with
    | some s' => s'
    | none =>
      let s := ok.foldl (fun s e => e.2.arrive s) s
      if !(conds s).isEmpty then park s
      else if !faults.isEmpty then trap s
      else match (l.findSome? (fun e => e.2.stall s)).or (s.sendStall l) with
        | some s' => s'
        | none => s.commitSlots l

/-- The evaluation of a bundle that has been fetched (R39, R41 to R46). -/
def State.evalBundle (s : State) (k : CtxKey) (b : BitVec 384) (pcn : BitVec 55) : State :=
  let l := decodeBundle b
  let bad := l.filterMap fun e => match e.2 with | .error _ => some e.1 | .ok _ => none
  let slots := l.filterMap fun e => match e.2 with | .error _ => none | .ok x => some (e.1, x)
  let c := s.ctx k
  if !bad.isEmpty then takeTrap k { code := 2 } c.pc (slotMask bad) false false none s
  else if !(illegalSlots slots).isEmpty then
    takeTrap k { code := 1 } c.pc (slotMask (illegalSlots slots)) false false none s
  else
    let en := slots.filter fun e => slotEnabled e.2 c
    if en.any fun e => c.hazard (portsOf e.2.instr) then s
    else { (s.latch k pcn en).evaluate (en.map fun e => (e.1, semOf e.2.instr)) with iss := {} }

/-! ## BUNDLE_ISSUE -/

/-- Whether a write of a context is held by an open migration window (R208). -/
def State.migWaits (s : State) (k : CtxKey) : Bool :=
  s.migHeld.any fun w => w.src.owner == some k && s.heldLive w && s.pageMig (unitOf k) w.page

/-- The context's next bundle fetched and evaluated, or its fetch wait or fetch trap taken; a fault of an earlier fetch wait
goes no further than this fetch (R91). -/
def State.fetchTurn (s : State) (k : CtxKey) : State :=
  match s.fetch k with
  | .wait b => s.fetchWait k b
  | .trap t => takeTrap k t (s.ctx k).pc 0 false false none (if (s.ctx k).fetchFault.isSome then s.bump else s)
  | .bundle b pcn => (s.mapCtx k fun c => { c with fetchFault := none }).evalBundle k b pcn

/-- A context at its bundle boundary: the sample of the abort flag on waking (R272), a trap that is due (R341), a hold by a
migration window (R208), and then the bundle (DEDUCED, log 27). -/
def State.turn (s : State) (k : CtxKey) : State :=
  if (s.ctx k).waking && s.abortDue k then
    let t := s.sampleEntry k
    t.mapCtx k fun c => { c with waking := s.abortDue k && t.abortDue k }
  else
    let s := s.mapCtx k fun c => { c with waking := false }
    match s.takePending k with
    | some s => s
    | none => if s.migWaits k then s.park k [.migration] else s.fetchTurn k

/-- BUNDLE_ISSUE: a core evaluates the bundle of its current context (R13, R40 to R46, R97). -/
def execBundleIssue (n : CoreNo) (s : State) : Outcome State Fault Refusal :=
  let co := s.core n
  match co.cur with
  | none => .refused .notEnabled
  | some c =>
    let k := mkKey n c
    if s.clk < co.nextIssue ∨ (s.ctx k).run ≠ .ready ∨ !s.mayIssue co then .refused .notEnabled
    else .next ((s.mapCore n fun co => { co with woke := none, evaled := some (s.clk, c), nextIssue := s.clk + 1 }).turn k)

/-! ## CODE_BLOCK_ARRIVAL (R24, R91) -/

/-- A block put into the code buffer of 32 blocks; a full one gives up a block, the one in place `victim` or the next one
that is not kept (R24, R90). -/
def putBlock (b : CodeBlock) (victim : Nat) (keep : List Nat) (l : List CodeBlock) : List CodeBlock :=
  let l := l.filter fun x => x.block != b.block
  if l.length < 32 then l ++ [b]
  else
    let free := fun (i : Nat) => match l[i]? with | some x => !keep.contains x.block | none => false
    l.set (((List.range 32).map fun i => (victim + i) % 32).find? free |>.getD victim) b

/-- CODE_BLOCK_ARRIVAL: the block that a context waits for arrives, or its read faults; the contexts of the core that
wait for it become ready (DESIGN CHOICE, log 44). An uncorrectable error of the block is taken as a fetch trap of code 14,
with the code word in SR_EINFO: the spec gives it no form of its own (DESIGN CHOICE, log 19). -/
def execCodeBlockArrival (k : CtxKey) (victim : BitVec 5) (s : State) : Outcome State Fault Refusal :=
  match (s.ctx k).run with
  | .fetchWait b =>
    let u := unitOf k
    let n := keyCore k
    let waiting := (coreKeys n).filter fun j => (s.ctx j).run == .fetchWait b
    let wake := fun (s : State) (f : Option (Nat × Nat)) => waiting.foldl (fun s j =>
      (s.mapCtx j fun c => { c with fetchFault := f }).makeReady j) s
    match s.readVA u none (256 * b) 256 with
    | .error (code, _) => .next (wake (s.cacheN u (256 * b) 256) (some (256 * b, if code = 14 then 14 else 6)))
    | .ok (l, _) =>
      let blk : CodeBlock := { block := b, data := placeBytes 0 l }
      .next (wake ((s.cacheN u (256 * b) 256).mapCore n fun co =>
        { co with code := putBlock blk victim.toNat (s.ctx k).recent co.code }) none)
  | _ => .refused .notEnabled

/-! ## CONTEXT_WAKE (R98) -/

/-- Whether a condition on which a context blocked has cleared (R98). -/
def State.condClear (s : State) (k : CtxKey) (cond : ParkCond) : Bool :=
  let c := s.ctx k
  let n := keyCore k
  match cond with
  | .inAvail sn m => let x := c.stream sn; !x.bound || decide (m ≤ x.avail)
  | .outFree sn m => let x := c.stream sn; !x.bound || decide (m ≤ x.ns - x.pending)
  | .handleFull h => (s.handle n h).st == .full
  | .handleFree h => (s.handle n h).st == .free
  | .window ch => (s.chEnd ch).win != 0
  | .fullCounter => s.fullOf k == 0
  | .event _ => c.evt
  | .matrixStream st => ((s.arr n).queue st).isEmpty
  | .matrixQueue st => !(s.arr n).full st
  | .query q => tget 0 q.toNat c.qh != 1
  | .group g => c.passed g c.pc
  | .migration => !s.migWaits k
  | .cleared => true

/-- Whether a condition is one that a unit clears before the check where it does so on the clk of an evaluation: EVT, the
state of a handle, and the window of a channel (R99, R232, R293). A query becomes DONE on no clk after the evaluation of its
context, so it needs no such undoing (R333). -/
def ParkCond.early : ParkCond → Bool
  | .event _ => true
  | .handleFull _ => true
  | .handleFree _ => true
  | .window _ => true
  | _ => false

/-- A park undone: a unit that clears such a condition on the clk of an evaluation does so before its check, so the context
that parked on it on this very clk is evaluated again (R99, R232, R293). None where it does not apply. -/
def State.unpark (s : State) (k : CtxKey) (conds : List ParkCond) : Option State :=
  match (s.core (keyCore k)).was with
  | some (t, c, ref) =>
    if t = s.clk ∧ c = keyCtx k ∧ conds.any (fun c => c.early && s.condClear k c) then
      some ((s.mapCtx k fun x => { x with run := .ready }).mapCore (keyCore k) fun co =>
        { co with cur := some c, ref := ref, woke := none, was := none, nextIssue := s.clk })
    else none
  | none => none

/-- CONTEXT_WAKE: a condition of a parked context has cleared, or a trap is due, and the context becomes ready (R98,
R342; DESIGN CHOICE, log 22). -/
def execContextWake (k : CtxKey) (s : State) : Outcome State Fault Refusal :=
  match (s.ctx k).run with
  | .parked conds =>
    match s.unpark k conds with
    | some s => .next s
    | none =>
      if conds.any (s.condClear k) || (s.ctx k).trapDue s.clk then .next (s.wake k) else .refused .notEnabled
  | _ => .refused .notEnabled

end Sys2Proof.Machine
end

