-- ==== Sys2Proof/Machine/Dispatch.lean ====
section
/-! DEFINITION. The dispatch: one arm per constructor of Instr. -/

namespace Sys2Proof.Machine

/-- The meaning of each step of the part. -/
def exec (i : Instr) (s : State) : Host.Outcome State Fault Refusal :=
  match i with
  | .nop => Sys2Proof.Machine.execNop s
  | .add a0 a1 a2 => Sys2Proof.Machine.execAdd a0 a1 a2 s
  | .sub a0 a1 a2 => Sys2Proof.Machine.execSub a0 a1 a2 s
  | .and a0 a1 a2 => Sys2Proof.Machine.execAnd a0 a1 a2 s
  | .or a0 a1 a2 => Sys2Proof.Machine.execOr a0 a1 a2 s
  | .xor a0 a1 a2 => Sys2Proof.Machine.execXor a0 a1 a2 s
  | .andn a0 a1 a2 => Sys2Proof.Machine.execAndn a0 a1 a2 s
  | .shl a0 a1 a2 => Sys2Proof.Machine.execShl a0 a1 a2 s
  | .shr a0 a1 a2 => Sys2Proof.Machine.execShr a0 a1 a2 s
  | .sar a0 a1 a2 => Sys2Proof.Machine.execSar a0 a1 a2 s
  | .rol a0 a1 a2 => Sys2Proof.Machine.execRol a0 a1 a2 s
  | .mul a0 a1 a2 => Sys2Proof.Machine.execMul a0 a1 a2 s
  | .mulh a0 a1 a2 => Sys2Proof.Machine.execMulh a0 a1 a2 s
  | .mulhu a0 a1 a2 => Sys2Proof.Machine.execMulhu a0 a1 a2 s
  | .div a0 a1 a2 => Sys2Proof.Machine.execDiv a0 a1 a2 s
  | .divu a0 a1 a2 => Sys2Proof.Machine.execDivu a0 a1 a2 s
  | .rem a0 a1 a2 => Sys2Proof.Machine.execRem a0 a1 a2 s
  | .remu a0 a1 a2 => Sys2Proof.Machine.execRemu a0 a1 a2 s
  | .min a0 a1 a2 => Sys2Proof.Machine.execMin a0 a1 a2 s
  | .max a0 a1 a2 => Sys2Proof.Machine.execMax a0 a1 a2 s
  | .minu a0 a1 a2 => Sys2Proof.Machine.execMinu a0 a1 a2 s
  | .maxu a0 a1 a2 => Sys2Proof.Machine.execMaxu a0 a1 a2 s
  | .clz a0 a1 => Sys2Proof.Machine.execClz a0 a1 s
  | .ctz a0 a1 => Sys2Proof.Machine.execCtz a0 a1 s
  | .popc a0 a1 => Sys2Proof.Machine.execPopc a0 a1 s
  | .bswap a0 a1 => Sys2Proof.Machine.execBswap a0 a1 s
  | .extr a0 a1 a2 a3 => Sys2Proof.Machine.execExtr a0 a1 a2 a3 s
  | .ins a0 a1 a2 a3 => Sys2Proof.Machine.execIns a0 a1 a2 a3 s
  | .sext a0 a1 a2 => Sys2Proof.Machine.execSext a0 a1 a2 s
  | .zext a0 a1 a2 => Sys2Proof.Machine.execZext a0 a1 a2 s
  | .addi a0 a1 a2 => Sys2Proof.Machine.execAddi a0 a1 a2 s
  | .andi a0 a1 a2 => Sys2Proof.Machine.execAndi a0 a1 a2 s
  | .ori a0 a1 a2 => Sys2Proof.Machine.execOri a0 a1 a2 s
  | .xori a0 a1 a2 => Sys2Proof.Machine.execXori a0 a1 a2 s
  | .shli a0 a1 a2 => Sys2Proof.Machine.execShli a0 a1 a2 s
  | .shri a0 a1 a2 => Sys2Proof.Machine.execShri a0 a1 a2 s
  | .sari a0 a1 a2 => Sys2Proof.Machine.execSari a0 a1 a2 s
  | .li a0 a1 => Sys2Proof.Machine.execLi a0 a1 s
  | .lih a0 a1 a2 => Sys2Proof.Machine.execLih a0 a1 a2 s
  | .cmp a0 a1 a2 a3 a4 => Sys2Proof.Machine.execCmp a0 a1 a2 a3 a4 s
  | .cmpi a0 a1 a2 a3 a4 => Sys2Proof.Machine.execCmpi a0 a1 a2 a3 a4 s
  | .plog a0 a1 a2 a3 a4 => Sys2Proof.Machine.execPlog a0 a1 a2 a3 a4 s
  | .sel a0 a1 a2 a3 => Sys2Proof.Machine.execSel a0 a1 a2 a3 s
  | .br a0 => Sys2Proof.Machine.execBr a0 s
  | .brx a0 a1 => Sys2Proof.Machine.execBrx a0 a1 s
  | .call a0 a1 => Sys2Proof.Machine.execCall a0 a1 s
  | .ret a0 => Sys2Proof.Machine.execRet a0 s
  | .loop a0 a1 => Sys2Proof.Machine.execLoop a0 a1 s
  | .lds a0 a1 a2 => Sys2Proof.Machine.execLds a0 a1 a2 s
  | .sts a0 a1 a2 => Sys2Proof.Machine.execSts a0 a1 a2 s
  | .srget a0 a1 => Sys2Proof.Machine.execSrget a0 a1 s
  | .srset a0 a1 => Sys2Proof.Machine.execSrset a0 a1 s
  | .wfe a0 a1 => Sys2Proof.Machine.execWfe a0 a1 s
  | .sev a0 => Sys2Proof.Machine.execSev a0 s
  | .sevRemote a0 a1 => Sys2Proof.Machine.execSevRemote a0 a1 s
  | .vfadd a0 a1 a2 a3 a4 => Sys2Proof.Machine.execVfadd a0 a1 a2 a3 a4 s
  | .vfsub a0 a1 a2 a3 a4 => Sys2Proof.Machine.execVfsub a0 a1 a2 a3 a4 s
  | .vfmul a0 a1 a2 a3 a4 => Sys2Proof.Machine.execVfmul a0 a1 a2 a3 a4 s
  | .vfma a0 a1 a2 a3 a4 a5 => Sys2Proof.Machine.execVfma a0 a1 a2 a3 a4 a5 s
  | .vfms a0 a1 a2 a3 a4 a5 => Sys2Proof.Machine.execVfms a0 a1 a2 a3 a4 a5 s
  | .vfnma a0 a1 a2 a3 a4 a5 => Sys2Proof.Machine.execVfnma a0 a1 a2 a3 a4 a5 s
  | .vfmin a0 a1 a2 a3 a4 => Sys2Proof.Machine.execVfmin a0 a1 a2 a3 a4 s
  | .vfmax a0 a1 a2 a3 a4 => Sys2Proof.Machine.execVfmax a0 a1 a2 a3 a4 s
  | .vfdiv a0 a1 a2 a3 a4 => Sys2Proof.Machine.execVfdiv a0 a1 a2 a3 a4 s
  | .vfsqrt a0 a1 a2 a3 => Sys2Proof.Machine.execVfsqrt a0 a1 a2 a3 s
  | .vfrcp a0 a1 a2 a3 => Sys2Proof.Machine.execVfrcp a0 a1 a2 a3 s
  | .vfrsq a0 a1 a2 a3 => Sys2Proof.Machine.execVfrsq a0 a1 a2 a3 s
  | .vfexp2 a0 a1 a2 a3 => Sys2Proof.Machine.execVfexp2 a0 a1 a2 a3 s
  | .vflog2 a0 a1 a2 a3 => Sys2Proof.Machine.execVflog2 a0 a1 a2 a3 s
  | .vfabs a0 a1 a2 a3 => Sys2Proof.Machine.execVfabs a0 a1 a2 a3 s
  | .vfneg a0 a1 a2 a3 => Sys2Proof.Machine.execVfneg a0 a1 a2 a3 s
  | .vfclass a0 a1 a2 a3 => Sys2Proof.Machine.execVfclass a0 a1 a2 a3 s
  | .vadd a0 a1 a2 a3 a4 => Sys2Proof.Machine.execVadd a0 a1 a2 a3 a4 s
  | .vsub a0 a1 a2 a3 a4 => Sys2Proof.Machine.execVsub a0 a1 a2 a3 a4 s
  | .vmul a0 a1 a2 a3 a4 => Sys2Proof.Machine.execVmul a0 a1 a2 a3 a4 s
  | .vmulh a0 a1 a2 a3 a4 => Sys2Proof.Machine.execVmulh a0 a1 a2 a3 a4 s
  | .vmin a0 a1 a2 a3 a4 => Sys2Proof.Machine.execVmin a0 a1 a2 a3 a4 s
  | .vminu a0 a1 a2 a3 a4 => Sys2Proof.Machine.execVminu a0 a1 a2 a3 a4 s
  | .vmax a0 a1 a2 a3 a4 => Sys2Proof.Machine.execVmax a0 a1 a2 a3 a4 s
  | .vmaxu a0 a1 a2 a3 a4 => Sys2Proof.Machine.execVmaxu a0 a1 a2 a3 a4 s
  | .vabs a0 a1 a2 a3 => Sys2Proof.Machine.execVabs a0 a1 a2 a3 s
  | .vand a0 a1 a2 a3 a4 => Sys2Proof.Machine.execVand a0 a1 a2 a3 a4 s
  | .vor a0 a1 a2 a3 a4 => Sys2Proof.Machine.execVor a0 a1 a2 a3 a4 s
  | .vxor a0 a1 a2 a3 a4 => Sys2Proof.Machine.execVxor a0 a1 a2 a3 a4 s
  | .vandn a0 a1 a2 a3 a4 => Sys2Proof.Machine.execVandn a0 a1 a2 a3 a4 s
  | .vshl a0 a1 a2 a3 a4 => Sys2Proof.Machine.execVshl a0 a1 a2 a3 a4 s
  | .vshr a0 a1 a2 a3 a4 => Sys2Proof.Machine.execVshr a0 a1 a2 a3 a4 s
  | .vsar a0 a1 a2 a3 a4 => Sys2Proof.Machine.execVsar a0 a1 a2 a3 a4 s
  | .vadds a0 a1 a2 a3 a4 => Sys2Proof.Machine.execVadds a0 a1 a2 a3 a4 s
  | .vsubs a0 a1 a2 a3 a4 => Sys2Proof.Machine.execVsubs a0 a1 a2 a3 a4 s
  | .vcmp a0 a1 a2 a3 a4 a5 a6 => Sys2Proof.Machine.execVcmp a0 a1 a2 a3 a4 a5 a6 s
  | .vfcmp a0 a1 a2 a3 a4 a5 a6 => Sys2Proof.Machine.execVfcmp a0 a1 a2 a3 a4 a5 a6 s
  | .mlog a0 a1 a2 a3 a4 => Sys2Proof.Machine.execMlog a0 a1 a2 a3 a4 s
  | .mcnt a0 a1 => Sys2Proof.Machine.execMcnt a0 a1 s
  | .mfirst a0 a1 => Sys2Proof.Machine.execMfirst a0 a1 s
  | .vsel a0 a1 a2 a3 a4 => Sys2Proof.Machine.execVsel a0 a1 a2 a3 a4 s
  | .vcvt a0 a1 a2 a3 a4 a5 a6 => Sys2Proof.Machine.execVcvt a0 a1 a2 a3 a4 a5 a6 s
  | .vcvtu a0 a1 a2 a3 a4 a5 a6 => Sys2Proof.Machine.execVcvtu a0 a1 a2 a3 a4 a5 a6 s
  | .vcvtq a0 a1 a2 a3 a4 a5 a6 a7 a8 => Sys2Proof.Machine.execVcvtq a0 a1 a2 a3 a4 a5 a6 a7 a8 s
  | .vunpk a0 a1 a2 a3 => Sys2Proof.Machine.execVunpk a0 a1 a2 a3 s
  | .vbcast a0 a1 a2 a3 a4 => Sys2Proof.Machine.execVbcast a0 a1 a2 a3 a4 s
  | .vbcastScalar a0 a1 a2 a3 => Sys2Proof.Machine.execVbcastScalar a0 a1 a2 a3 s
  | .vins a0 a1 a2 a3 => Sys2Proof.Machine.execVins a0 a1 a2 a3 s
  | .vext a0 a1 a2 a3 => Sys2Proof.Machine.execVext a0 a1 a2 a3 s
  | .vperm a0 a1 a2 a3 a4 => Sys2Proof.Machine.execVperm a0 a1 a2 a3 a4 s
  | .vperm2 a0 a1 a2 a3 a4 a5 => Sys2Proof.Machine.execVperm2 a0 a1 a2 a3 a4 a5 s
  | .vzip a0 a1 a2 a3 a4 a5 => Sys2Proof.Machine.execVzip a0 a1 a2 a3 a4 a5 s
  | .vunzip a0 a1 a2 a3 a4 a5 => Sys2Proof.Machine.execVunzip a0 a1 a2 a3 a4 a5 s
  | .vcomp a0 a1 a2 a3 => Sys2Proof.Machine.execVcomp a0 a1 a2 a3 s
  | .vexpd a0 a1 a2 a3 => Sys2Proof.Machine.execVexpd a0 a1 a2 a3 s
  | .vrotm a0 a1 a2 a3 a4 => Sys2Proof.Machine.execVrotm a0 a1 a2 a3 a4 s
  | .vrotmScalar a0 a1 a2 a3 a4 => Sys2Proof.Machine.execVrotmScalar a0 a1 a2 a3 a4 s
  | .vrsum a0 a1 a2 a3 => Sys2Proof.Machine.execVrsum a0 a1 a2 a3 s
  | .vrmax a0 a1 a2 a3 => Sys2Proof.Machine.execVrmax a0 a1 a2 a3 s
  | .vrmin a0 a1 a2 a3 => Sys2Proof.Machine.execVrmin a0 a1 a2 a3 s
  | .vradd a0 a1 a2 a3 => Sys2Proof.Machine.execVradd a0 a1 a2 a3 s
  | .vsort a0 a1 => Sys2Proof.Machine.execVsort a0 a1 s
  | .vmrg a0 a1 a2 a3 => Sys2Proof.Machine.execVmrg a0 a1 a2 a3 s
  | .vmsplit a0 a1 a2 a3 => Sys2Proof.Machine.execVmsplit a0 a1 a2 a3 s
  | .vadamw a0 a1 a2 a3 a4 a5 => Sys2Proof.Machine.execVadamw a0 a1 a2 a3 a4 a5 s
  | .vsgdm a0 a1 a2 a3 a4 a5 => Sys2Proof.Machine.execVsgdm a0 a1 a2 a3 a4 a5 s
  | .vrand a0 a1 a2 => Sys2Proof.Machine.execVrand a0 a1 a2 s
  | .mloadw a0 a1 a2 a3 a4 => Sys2Proof.Machine.execMloadw a0 a1 a2 a3 a4 s
  | .mswap a0 => Sys2Proof.Machine.execMswap a0 s
  | .mmul a0 a1 a2 a3 a4 a5 a6 => Sys2Proof.Machine.execMmul a0 a1 a2 a3 a4 a5 a6 s
  | .mmulg a0 a1 a2 a3 a4 a5 a6 a7 => Sys2Proof.Machine.execMmulg a0 a1 a2 a3 a4 a5 a6 a7 s
  | .mdrain a0 a1 a2 a3 a4 a5 a6 a7 => Sys2Proof.Machine.execMdrain a0 a1 a2 a3 a4 a5 a6 a7 s
  | .mdrainV a0 a1 a2 a3 a4 a5 a6 => Sys2Proof.Machine.execMdrainV a0 a1 a2 a3 a4 a5 a6 s
  | .mzero a0 a1 => Sys2Proof.Machine.execMzero a0 a1 s
  | .mcbook a0 a1 => Sys2Proof.Machine.execMcbook a0 a1 s
  | .mdset a0 a1 a2 => Sys2Proof.Machine.execMdset a0 a1 a2 s
  | .mfence => Sys2Proof.Machine.execMfence s
  | .mwait a0 => Sys2Proof.Machine.execMwait a0 s
  | .mstat a0 a1 a2 a3 => Sys2Proof.Machine.execMstat a0 a1 a2 a3 s
  | .mknot a0 a1 => Sys2Proof.Machine.execMknot a0 a1 s
  | .mknotC a0 a1 => Sys2Proof.Machine.execMknotC a0 a1 s
  | .mspl a0 a1 a2 a3 a4 => Sys2Proof.Machine.execMspl a0 a1 a2 a3 a4 s
  | .msplb a0 a1 a2 a3 a4 a5 => Sys2Proof.Machine.execMsplb a0 a1 a2 a3 a4 a5 s
  | .msplg a0 a1 a2 => Sys2Proof.Machine.execMsplg a0 a1 a2 s
  | .mrefine a0 => Sys2Proof.Machine.execMrefine a0 s
  | .mgdrain a0 a1 a2 => Sys2Proof.Machine.execMgdrain a0 a1 a2 s
  | .mgzero a0 => Sys2Proof.Machine.execMgzero a0 s
  | .ldrow a0 a1 a2 => Sys2Proof.Machine.execLdrow a0 a1 a2 s
  | .strow a0 a1 a2 a3 => Sys2Proof.Machine.execStrow a0 a1 a2 a3 s
  | .ldrowr a0 a1 a2 a3 => Sys2Proof.Machine.execLdrowr a0 a1 a2 a3 s
  | .strowr a0 a1 a2 a3 a4 => Sys2Proof.Machine.execStrowr a0 a1 a2 a3 a4 s
  | .amo a0 a1 a2 a3 a4 a5 a6 a7 => Sys2Proof.Machine.execAmo a0 a1 a2 a3 a4 a5 a6 a7 s
  | .amor a0 a1 a2 a3 a4 a5 a6 a7 a8 a9 => Sys2Proof.Machine.execAmor a0 a1 a2 a3 a4 a5 a6 a7 a8 a9 s
  | .fence a0 => Sys2Proof.Machine.execFence a0 s
  | .sbind a0 a1 a2 => Sys2Proof.Machine.execSbind a0 a1 a2 s
  | .sunbind a0 => Sys2Proof.Machine.execSunbind a0 s
  | .sadv a0 a1 a2 => Sys2Proof.Machine.execSadv a0 a1 a2 s
  | .swait a0 a1 a2 => Sys2Proof.Machine.execSwait a0 a1 a2 s
  | .sstat a0 a1 a2 => Sys2Proof.Machine.execSstat a0 a1 a2 s
  | .probe a0 a1 a2 => Sys2Proof.Machine.execProbe a0 a1 a2 s
  | .pfill a0 a1 => Sys2Proof.Machine.execPfill a0 a1 s
  | .pwb a0 a1 => Sys2Proof.Machine.execPwb a0 a1 s
  | .pinv a0 a1 => Sys2Proof.Machine.execPinv a0 a1 s
  | .pinvAll => Sys2Proof.Machine.execPinvAll s
  | .pinvCfg a0 => Sys2Proof.Machine.execPinvCfg a0 s
  | .phase a0 => Sys2Proof.Machine.execPhase a0 s
  | .amog a0 a1 a2 a3 a4 => Sys2Proof.Machine.execAmog a0 a1 a2 a3 a4 s
  | .xchain a0 a1 a2 => Sys2Proof.Machine.execXchain a0 a1 a2 s
  | .xgath a0 a1 a2 => Sys2Proof.Machine.execXgath a0 a1 a2 s
  | .xscat a0 a1 a2 => Sys2Proof.Machine.execXscat a0 a1 a2 s
  | .bwait a0 a1 a2 => Sys2Proof.Machine.execBwait a0 a1 a2 s
  | .bsetCfg a0 a1 => Sys2Proof.Machine.execBsetCfg a0 a1 s
  | .bsetFull a0 => Sys2Proof.Machine.execBsetFull a0 s
  | .bsetFree a0 => Sys2Proof.Machine.execBsetFree a0 s
  | .stashc a0 a1 a2 a3 a4 a5 => Sys2Proof.Machine.execStashc a0 a1 a2 a3 a4 a5 s
  | .stashs a0 a1 a2 a3 => Sys2Proof.Machine.execStashs a0 a1 a2 a3 s
  | .stashd a0 a1 a2 => Sys2Proof.Machine.execStashd a0 a1 a2 s
  | .stashp a0 a1 a2 => Sys2Proof.Machine.execStashp a0 a1 a2 s
  | .stashf a0 a1 a2 => Sys2Proof.Machine.execStashf a0 a1 a2 s
  | .stashq a0 a1 a2 => Sys2Proof.Machine.execStashq a0 a1 a2 s
  | .tarm a0 a1 a2 a3 a4 => Sys2Proof.Machine.execTarm a0 a1 a2 a3 a4 s
  | .tdec a0 a1 a2 => Sys2Proof.Machine.execTdec a0 a1 a2 s
  | .tdone => Sys2Proof.Machine.execTdone s
  | .jnext a0 => Sys2Proof.Machine.execJnext a0 s
  | .jprog a0 a1 => Sys2Proof.Machine.execJprog a0 a1 s
  | .early => Sys2Proof.Machine.execEarly s
  | .waitvis => Sys2Proof.Machine.execWaitvis s
  | .gbar a0 => Sys2Proof.Machine.execGbar a0 s
  | .abort a0 => Sys2Proof.Machine.execAbort a0 s
  | .abortSelf => Sys2Proof.Machine.execAbortSelf s
  | .abchk => Sys2Proof.Machine.execAbchk s
  | .qpush a0 a1 a2 => Sys2Proof.Machine.execQpush a0 a1 a2 s
  | .mbpost a0 a1 a2 a3 => Sys2Proof.Machine.execMbpost a0 a1 a2 a3 s
  | .verget a0 a1 a2 => Sys2Proof.Machine.execVerget a0 a1 a2 s
  | .verputRel a0 a1 a2 => Sys2Proof.Machine.execVerputRel a0 a1 a2 s
  | .verputPub a0 a1 a2 => Sys2Proof.Machine.execVerputPub a0 a1 a2 s
  | .verputAlloc a0 a1 => Sys2Proof.Machine.execVerputAlloc a0 a1 s
  | .chsend a0 a1 a2 a3 a4 => Sys2Proof.Machine.execChsend a0 a1 a2 a3 a4 s
  | .chwin a0 a1 a2 => Sys2Proof.Machine.execChwin a0 a1 a2 s
  | .chstatSnd a0 a1 => Sys2Proof.Machine.execChstatSnd a0 a1 s
  | .chstatRcv a0 a1 => Sys2Proof.Machine.execChstatRcv a0 a1 s
  | .chstatErr a0 a1 a2 => Sys2Proof.Machine.execChstatErr a0 a1 a2 s
  | .coll a0 a1 a2 => Sys2Proof.Machine.execColl a0 a1 a2 s
  | .cwait a0 a1 => Sys2Proof.Machine.execCwait a0 a1 s
  | .route a0 a1 => Sys2Proof.Machine.execRoute a0 a1 s
  | .rstat a0 a1 => Sys2Proof.Machine.execRstat a0 a1 s
  | .sginst a0 a1 a2 => Sys2Proof.Machine.execSginst a0 a1 a2 s
  | .sginstRm a0 a1 => Sys2Proof.Machine.execSginstRm a0 a1 s
  | .sqsub a0 a1 a2 => Sys2Proof.Machine.execSqsub a0 a1 a2 s
  | .sqwait a0 a1 => Sys2Proof.Machine.execSqwait a0 a1 s
  | .sqwaitT a0 a1 => Sys2Proof.Machine.execSqwaitT a0 a1 s
  | .sqcan a0 a1 => Sys2Proof.Machine.execSqcan a0 a1 s
  | .trap a0 => Sys2Proof.Machine.execTrap a0 s
  | .brk a0 => Sys2Proof.Machine.execBrk a0 s
  | .eret => Sys2Proof.Machine.execEret s
  | .eretDisc => Sys2Proof.Machine.execEretDisc s
  | .ctxsave a0 a1 a2 a3 => Sys2Proof.Machine.execCtxsave a0 a1 a2 a3 s
  | .ctxload a0 a1 => Sys2Proof.Machine.execCtxload a0 a1 s
  | .dload a0 a1 => Sys2Proof.Machine.execDload a0 a1 s
  | .tlbinv a0 => Sys2Proof.Machine.execTlbinv a0 s
  | .tlbinvAll => Sys2Proof.Machine.execTlbinvAll s
  | .stop a0 a1 => Sys2Proof.Machine.execStop a0 a1 s
  | .bundleIssue a0 => Sys2Proof.Machine.execBundleIssue a0 s
  | .codeBlockArrival a0 a1 => Sys2Proof.Machine.execCodeBlockArrival a0 a1 s
  | .contextWake a0 => Sys2Proof.Machine.execContextWake a0 s
  | .engineFaultDelivery a0 => Sys2Proof.Machine.execEngineFaultDelivery a0 s
  | .wfeTimeout a0 => Sys2Proof.Machine.execWfeTimeout a0 s
  | .remoteSevArrival a0 a1 => Sys2Proof.Machine.execRemoteSevArrival a0 a1 s
  | .matrixOpStart a0 a1 => Sys2Proof.Machine.execMatrixOpStart a0 a1 s
  | .matrixOpComplete a0 a1 => Sys2Proof.Machine.execMatrixOpComplete a0 a1 s
  | .remoteMessageArrival a0 a1 => Sys2Proof.Machine.execRemoteMessageArrival a0 a1 s
  | .remoteReplyArrival a0 a1 => Sys2Proof.Machine.execRemoteReplyArrival a0 a1 s
  | .streamFill a0 a1 a2 => Sys2Proof.Machine.execStreamFill a0 a1 a2 s
  | .streamDrain a0 a1 => Sys2Proof.Machine.execStreamDrain a0 a1 s
  | .optimiserOutputWrite a0 a1 => Sys2Proof.Machine.execOptimiserOutputWrite a0 a1 s
  | .probeFillComplete a0 a1 => Sys2Proof.Machine.execProbeFillComplete a0 a1 s
  | .releaseComplete a0 => Sys2Proof.Machine.execReleaseComplete a0 s
  | .copyRecord a0 a1 => Sys2Proof.Machine.execCopyRecord a0 a1 s
  | .copyRecordComplete a0 a1 => Sys2Proof.Machine.execCopyRecordComplete a0 a1 s
  | .xgathComplete a0 a1 => Sys2Proof.Machine.execXgathComplete a0 a1 s
  | .xscatComplete a0 a1 => Sys2Proof.Machine.execXscatComplete a0 a1 s
  | .stashCommandReceipt a0 => Sys2Proof.Machine.execStashCommandReceipt a0 s
  | .stashCommandComplete a0 a1 => Sys2Proof.Machine.execStashCommandComplete a0 a1 s
  | .taskArmRequest a0 a1 => Sys2Proof.Machine.execTaskArmRequest a0 a1 s
  | .taskDecrementArrival a0 a1 => Sys2Proof.Machine.execTaskDecrementArrival a0 a1 s
  | .chunkDeal a0 => Sys2Proof.Machine.execChunkDeal a0 s
  | .shareStart a0 => Sys2Proof.Machine.execShareStart a0 s
  | .arbiterPick a0 => Sys2Proof.Machine.execArbiterPick a0 s
  | .preemptionPoint a0 => Sys2Proof.Machine.execPreemptionPoint a0 s
  | .engineReplyArrival a0 a1 => Sys2Proof.Machine.execEngineReplyArrival a0 a1 s
  | .channelFailure a0 a1 => Sys2Proof.Machine.execChannelFailure a0 a1 s
  | .rebuildBlockMove a0 => Sys2Proof.Machine.execRebuildBlockMove a0 s
  | .peerPacketArrival a0 => Sys2Proof.Machine.execPeerPacketArrival a0 s
  | .budgetOverrun a0 => Sys2Proof.Machine.execBudgetOverrun a0 s
  | .stopTokenTrap a0 => Sys2Proof.Machine.execStopTokenTrap a0 s
  | .hostWpWrite a0 a1 => Sys2Proof.Machine.execHostWpWrite a0 a1 s
  | .launchNop a0 => Sys2Proof.Machine.execLaunchNop a0 s
  | .launchArm a0 => Sys2Proof.Machine.execLaunchArm a0 s
  | .launchTdec a0 => Sys2Proof.Machine.execLaunchTdec a0 s
  | .launchPost a0 => Sys2Proof.Machine.execLaunchPost a0 s
  | .launchAbort a0 => Sys2Proof.Machine.execLaunchAbort a0 s
  | .qctlGo a0 => Sys2Proof.Machine.execQctlGo a0 s
  | .qctlReset a0 => Sys2Proof.Machine.execQctlReset a0 s
  | .qctlHalt a0 => Sys2Proof.Machine.execQctlHalt a0 s
  | .claspEvaluate a0 => Sys2Proof.Machine.execClaspEvaluate a0 s
  | .claspConfigWrite a0 a1 a2 => Sys2Proof.Machine.execClaspConfigWrite a0 a1 a2 s
  | .groupBitmapWrite a0 a1 a2 => Sys2Proof.Machine.execGroupBitmapWrite a0 a1 a2 s
  | .groupCtxmaskWrite a0 a1 => Sys2Proof.Machine.execGroupCtxmaskWrite a0 a1 s
  | .chsendSourceRead a0 => Sys2Proof.Machine.execChsendSourceRead a0 s
  | .windowGrantArrival a0 => Sys2Proof.Machine.execWindowGrantArrival a0 s
  | .channelReceipt a0 => Sys2Proof.Machine.execChannelReceipt a0 s
  | .channelRecordWrite a0 a1 a2 => Sys2Proof.Machine.execChannelRecordWrite a0 a1 a2 s
  | .collectiveStart a0 => Sys2Proof.Machine.execCollectiveStart a0 s
  | .collectiveComplete a0 => Sys2Proof.Machine.execCollectiveComplete a0 s
  | .routeReservation a0 => Sys2Proof.Machine.execRouteReservation a0 s
  | .routeReservationAnswer a0 => Sys2Proof.Machine.execRouteReservationAnswer a0 s
  | .routeEntryCommit a0 a1 => Sys2Proof.Machine.execRouteEntryCommit a0 a1 s
  | .routeDecrement a0 a1 => Sys2Proof.Machine.execRouteDecrement a0 a1 s
  | .routeComplete a0 => Sys2Proof.Machine.execRouteComplete a0 s
  | .expertTableWrite a0 a1 a2 => Sys2Proof.Machine.execExpertTableWrite a0 a1 a2 s
  | .dimsWrite a0 => Sys2Proof.Machine.execDimsWrite a0 s
  | .coordWrite a0 => Sys2Proof.Machine.execCoordWrite a0 s
  | .portenWrite a0 => Sys2Proof.Machine.execPortenWrite a0 s
  | .ringEntryWrite a0 a1 a2 => Sys2Proof.Machine.execRingEntryWrite a0 a1 a2 s
  | .portTrained a0 => Sys2Proof.Machine.execPortTrained a0 s
  | .portTrainingTimeout a0 => Sys2Proof.Machine.execPortTrainingTimeout a0 s
  | .portFailure a0 => Sys2Proof.Machine.execPortFailure a0 s
  | .graphInstall a0 => Sys2Proof.Machine.execGraphInstall a0 s
  | .graphRemoveReceipt a0 => Sys2Proof.Machine.execGraphRemoveReceipt a0 s
  | .graphEntryFreed a0 => Sys2Proof.Machine.execGraphEntryFreed a0 s
  | .queryAdmit a0 => Sys2Proof.Machine.execQueryAdmit a0 s
  | .queryRound a0 a1 => Sys2Proof.Machine.execQueryRound a0 a1 s
  | .queryVisible a0 => Sys2Proof.Machine.execQueryVisible a0 s
  | .stopArrival a0 => Sys2Proof.Machine.execStopArrival a0 s
  | .governorUpdate a0 => Sys2Proof.Machine.execGovernorUpdate a0 s
  | .stkrateWrite a0 => Sys2Proof.Machine.execStkrateWrite a0 s
  | .stackRetrainDone a0 => Sys2Proof.Machine.execStackRetrainDone a0 s
  | .saveDeadline a0 => Sys2Proof.Machine.execSaveDeadline a0 s
  | .ptrootWrite a0 => Sys2Proof.Machine.execPtrootWrite a0 s
  | .registerWrite a0 a1 => Sys2Proof.Machine.execRegisterWrite a0 a1 s
  | .bar2Read a0 a1 => Sys2Proof.Machine.execBar2Read a0 a1 s
  | .bar2Write a0 a1 => Sys2Proof.Machine.execBar2Write a0 a1 s
  | .functionReady a0 a1 => Sys2Proof.Machine.execFunctionReady a0 a1 s
  | .dieBringup a0 => Sys2Proof.Machine.execDieBringup a0 s
  | .dieReset a0 => Sys2Proof.Machine.execDieReset a0 s
  | .linkPortReset a0 => Sys2Proof.Machine.execLinkPortReset a0 s
  | .moduleReset => Sys2Proof.Machine.execModuleReset s
  | .powerInput => Sys2Proof.Machine.execPowerInput s
  | .norlysControlWrite a0 a1 => Sys2Proof.Machine.execNorlysControlWrite a0 a1 s
  | .norlysControlRelease a0 => Sys2Proof.Machine.execNorlysControlRelease a0 s
  | .measurementExtend a0 a1 => Sys2Proof.Machine.execMeasurementExtend a0 a1 s
  | .getVersion => Sys2Proof.Machine.execGetVersion s
  | .getCapabilities => Sys2Proof.Machine.execGetCapabilities s
  | .negotiateAlgorithms => Sys2Proof.Machine.execNegotiateAlgorithms s
  | .getDigests => Sys2Proof.Machine.execGetDigests s
  | .getCertificate => Sys2Proof.Machine.execGetCertificate s
  | .challenge => Sys2Proof.Machine.execChallenge s
  | .getMeasurements => Sys2Proof.Machine.execGetMeasurements s
  | .claspRequestArrival a0 => Sys2Proof.Machine.execClaspRequestArrival a0 s
  | .abortMessageArrival a0 a1 => Sys2Proof.Machine.execAbortMessageArrival a0 a1 s
  | .linkFlitLoss a0 => Sys2Proof.Machine.execLinkFlitLoss a0 s
  | .powerInputLoss => Sys2Proof.Machine.execPowerInputLoss s
  | .systemDeadMark a0 a1 => Sys2Proof.Machine.execSystemDeadMark a0 a1 s

end Sys2Proof.Machine
end

