-- ==== Sys2Proof/Machine/Moves.lean ====
section
/-! DEFINITION. The moves of the schedule (DESIGN CHOICE, log 1), and the placing of a program (DEDUCED, log 30). -/

namespace Sys2Proof.Machine

open Host (Outcome)

/-- Whether a step of the part is an event, and not an instruction of a slot. -/
def isEvent : Instr → Bool
  | .bundleIssue .. => true
  | .codeBlockArrival .. => true
  | .contextWake .. => true
  | .engineFaultDelivery .. => true
  | .wfeTimeout .. => true
  | .remoteSevArrival .. => true
  | .matrixOpStart .. => true
  | .matrixOpComplete .. => true
  | .remoteMessageArrival .. => true
  | .remoteReplyArrival .. => true
  | .streamFill .. => true
  | .streamDrain .. => true
  | .optimiserOutputWrite .. => true
  | .probeFillComplete .. => true
  | .releaseComplete .. => true
  | .copyRecord .. => true
  | .copyRecordComplete .. => true
  | .xgathComplete .. => true
  | .xscatComplete .. => true
  | .stashCommandReceipt .. => true
  | .stashCommandComplete .. => true
  | .taskArmRequest .. => true
  | .taskDecrementArrival .. => true
  | .chunkDeal .. => true
  | .shareStart .. => true
  | .arbiterPick .. => true
  | .preemptionPoint .. => true
  | .engineReplyArrival .. => true
  | .channelFailure .. => true
  | .rebuildBlockMove .. => true
  | .peerPacketArrival .. => true
  | .budgetOverrun .. => true
  | .stopTokenTrap .. => true
  | .hostWpWrite .. => true
  | .launchNop .. => true
  | .launchArm .. => true
  | .launchTdec .. => true
  | .launchPost .. => true
  | .launchAbort .. => true
  | .qctlGo .. => true
  | .qctlReset .. => true
  | .qctlHalt .. => true
  | .claspEvaluate .. => true
  | .claspConfigWrite .. => true
  | .groupBitmapWrite .. => true
  | .groupCtxmaskWrite .. => true
  | .chsendSourceRead .. => true
  | .windowGrantArrival .. => true
  | .channelReceipt .. => true
  | .channelRecordWrite .. => true
  | .collectiveStart .. => true
  | .collectiveComplete .. => true
  | .routeReservation .. => true
  | .routeReservationAnswer .. => true
  | .routeEntryCommit .. => true
  | .routeDecrement .. => true
  | .routeComplete .. => true
  | .expertTableWrite .. => true
  | .dimsWrite .. => true
  | .coordWrite .. => true
  | .portenWrite .. => true
  | .ringEntryWrite .. => true
  | .portTrained .. => true
  | .portTrainingTimeout .. => true
  | .portFailure .. => true
  | .graphInstall .. => true
  | .graphRemoveReceipt .. => true
  | .graphEntryFreed .. => true
  | .queryAdmit .. => true
  | .queryRound .. => true
  | .queryVisible .. => true
  | .stopArrival .. => true
  | .governorUpdate .. => true
  | .stkrateWrite .. => true
  | .stackRetrainDone .. => true
  | .saveDeadline .. => true
  | .ptrootWrite .. => true
  | .registerWrite .. => true
  | .bar2Read .. => true
  | .bar2Write .. => true
  | .functionReady .. => true
  | .dieBringup .. => true
  | .dieReset .. => true
  | .linkPortReset .. => true
  | .moduleReset => true
  | .powerInput => true
  | .norlysControlWrite .. => true
  | .norlysControlRelease .. => true
  | .measurementExtend .. => true
  | .getVersion => true
  | .getCapabilities => true
  | .negotiateAlgorithms => true
  | .getDigests => true
  | .getCertificate => true
  | .challenge => true
  | .getMeasurements => true
  | .claspRequestArrival .. => true
  | .abortMessageArrival .. => true
  | .linkFlitLoss .. => true
  | .powerInputLoss => true
  | .systemDeadMark .. => true
  | _ => false

/-- The firmware stages that run an event of the part: 0 the management controller, which reads and writes for Norlys,
orders the resets and answers SPDM; 1 the launch queues, Clasp, Locket and routing; 2 the memory agents and Filigree; 3 the
dispatchers (R358, R359; DEDUCED, log 17). -/
def firmwareFor : Instr → List Nat
  | .norlysControlWrite .. | .norlysControlRelease .. | .dieReset .. | .linkPortReset .. | .moduleReset
  | .getVersion | .getCapabilities | .negotiateAlgorithms | .getDigests | .getCertificate | .challenge | .getMeasurements => [0]
  | .launchNop .. | .launchArm .. | .launchTdec .. | .launchPost .. | .launchAbort .. | .peerPacketArrival ..
  | .claspEvaluate .. | .claspRequestArrival .. | .stashCommandReceipt .. | .stashCommandComplete ..
  | .routeReservation .. | .routeReservationAnswer .. | .routeDecrement .. | .routeComplete .. => [1]
  | .routeEntryCommit .. => [1, 2]
  | .graphInstall .. | .graphRemoveReceipt .. | .graphEntryFreed .. | .queryAdmit .. | .queryRound .. | .queryVisible ..
  | .channelFailure .. | .rebuildBlockMove .. | .bar2Read .. | .bar2Write .. => [2]
  | .taskArmRequest .. | .taskDecrementArrival .. | .abortMessageArrival .. | .chunkDeal .. | .shareStart ..
  | .arbiterPick .. | .preemptionPoint .. => [3]
  | _ => []

/-- The firmware stages that run a move of the schedule: those of its row; the routing engine's answer to another module's
reservation; its entries, with the memory agents, which also make the accesses through BAR2; and Norlys reads (R358, R359;
DEDUCED, log 17). A message that the links only set down for its unit needs none. -/
def Move.firmware : Move → List Nat
  | .row _ i => firmwareFor i
  | .arrive (.reserve ..) => [1]
  | .entry _ => [1, 2]
  | .host => [2]
  | .norlysRead _ => [0]
  | _ => []

/-- Whether the firmware that runs a move has been measured (R358). -/
def State.firmwareReady (s : State) (m : Move) : Bool := m.firmware.all (s.isMeasured 8)

/-- Whether a row of the schedule can take place: an event, with the part powered, or with its power coming back
(R17), and with the firmware that runs it measured (R358). -/
def State.rowStop (s : State) (i : Instr) : Option (Outcome State Fault Refusal) :=
  if !s.powered && i != .powerInput then some (.fault .noPower)
  else if isEvent i && s.firmwareReady (.row 0 i) then none
  else some (.refused .notEnabled)

/-- What a move that may not be possible gives. -/
def ofOption : Option State → Outcome State Fault Refusal
  | some s => .next s
  | none => .refused .notEnabled

/-- The value that a Norlys read gives: PSTAT and FUNCREADY as they stand; the temperatures and the power have no form in
the spec, and are free values (R359, R351, R357; DESIGN CHOICE, log 63). -/
def State.norlysValue (s : State) : NorlysReg → Word
  | .temperature i => Config.temperature i s.fresh
  | .power => Config.powerDraw s.fresh
  | .pstat => s.ctl.pstat
  | .funcready => s.funcready

/-- A Norlys read answered (R359). -/
def State.norlysAnswer (s : State) (r : NorlysReg) : State :=
  { s with norlysDone := s.norlysDone ++ [(r, s.norlysValue r)], fresh := s.fresh + 1 }

/-- The moves that are no row of the table (R176, R202, R221, R222, R287, R294, R308, R350, R355, R357 to R359). -/
def State.minor (s : State) (m : Move) : Outcome State Fault Refusal :=
  if !s.powered then .fault .noPower
  else if !s.firmwareReady m then .refused .notEnabled
  else match m with
    | .row _ _ => .refused .notEnabled
    | .commit k blk => ofOption (s.commitOne k blk)
    | .sample k va => ofOption (s.takeSample k va)
    | .tlbEvict u vpn => .next { s with tlb := tmod [] u (tput 0 vpn 0) s.tlb }
    | .arrive m => .next (s.arrive m)
    | .fused k => match (s.ctx k).fused with
      | o :: _ => .next (s.applyFused k o)
      | [] => .refused .notEnabled
    | .host => .next (s.bar2Go s.bar2)
    | .leave idx => ofOption (s.leaveOut idx)
    | .receipt ch => ofOption (s.receiptPart ch)
    | .entry src => ofOption (s.takeEntry src)
    | .cluster cl up => ofOption (s.moveCluster cl up)
    | .measure slot => ofOption (s.measure slot)
    | .barRead off => ofOption ((s.readBar0 off).map fun v => { s with bar0Done := s.bar0Done ++ [(off, v)] })
    | .norlysRead r => .next (s.norlysAnswer r)

/-- One clk in which nothing of the schedule takes place. -/
def State.quietClk (s : State) : Outcome State Fault Refusal :=
  if s.powered then .next (s.tick 1) else .fault .noPower

/-- The clk that pass before a move. -/
def Move.clks : Move → Nat
  | .row dt _ => dt
  | _ => 0

/-- The schedule without its first move, at the clk of that move. -/
def State.popped (s : State) (m : Move) (r : List Move) : State := ({ s with agenda := r } : State).tick m.clks

/-- The 25 code words of a literal bundle, the escape first (R21, R22). -/
def literalWords (b : BitVec 384) : List Nat := 0xFFFF :: (List.range 24).map fun i => b.toNat / 2 ^ (16 * i) % 2 ^ 16

/-- A code word put into the code buffer, into its block or a block of zeros. -/
def putWord (pc w : Nat) (l : List CodeBlock) : List CodeBlock :=
  let blk := pc / 128
  let old : Row := ((l.find? fun b => b.block == blk).map (·.data)).getD 0
  let off := 16 * (pc % 128)
  let new := BitVec.ofNat 2048 (old.toNat - old.toNat / 2 ^ off % 2 ^ 16 * 2 ^ off + w % 2 ^ 16 * 2 ^ off)
  (l.filter fun b => b.block != blk) ++ [{ block := blk, data := new }]

/-- A bundle placed where core 0 issues next, as a literal at the PC of its current context, or of context 0, which then
issues it after one clk (DEDUCED, log 30). -/
def State.placeBundle (s : State) (b : BitVec 384) : State :=
  let c := ((s.core 0).cur).getD 0
  let k := mkKey 0 c
  let pc := (s.ctx k).pc.toNat
  let ws := literalWords b
  let code := (List.range 25).foldl (fun l i => putWord ((pc + i) % 2 ^ 55) (ws.getD i 0) l) (s.core 0).code
  let s := s.mapCtx k fun x =>
    { x with run := .ready, waking := false, pend := [], overrun := false, stopTrap := false, xwait := [], vwait := [] }
  let s := s.mapCore 0 fun co => { co with cur := some c, nextIssue := 0, code := code }
  { s with powered := true, duty := 64, agenda := .row 1 (.bundleIssue 0) :: s.agenda,
           migHeld := s.migHeld.filter fun w => w.src.owner != some k }

end Sys2Proof.Machine
end

