-- ==== Sys2Proof/Machine/Step.lean ====
section
/-! DEFINITION. One step: the first move of the schedule, or a clk without one (DESIGN CHOICE, log 1). -/

namespace Sys2Proof.Machine

/-- One step of the part. -/
def step (s : State) : Host.Outcome State Fault Refusal :=
  match s.agenda with
  | [] => s.quietClk
  | .row dt i :: r =>
    match (s.popped (.row dt i) r).rowStop i with
    | some o => o
    | none => exec i (s.popped (.row dt i) r)
  | m :: r => (s.popped m r).minor m

/-- A state with an instruction placed where the next step issues it (DEDUCED, log 30). -/
def State.withFetchWord (s : State) (nbits w : Nat) : State := s.placeBundle (BitVec.ofNat 384 (w % 2 ^ nbits))

end Sys2Proof.Machine
end

