-- ==== Sys2Proof/Safety.lean ====
section
/-! DEFINITION. The terms of the claims: what a safe state is, how a context's registers read, and what a step leaves
unchanged. -/

namespace Sys2Proof.Machine

/-! ## Safe states -/

/-- The memories keep their canonical form. -/
def State.memWf (s : State) : Bool := Memory.wf s.dram.bytes && Memory.wf s.spad.bytes

/-- The dimensions and coordinates of the module may stand together (R352). -/
def State.torusLegal (s : State) : Bool := torusOk s.torus.dims.toNat s.torus.coord.toNat

/-- The power cap lies from 600 to 1,800 W (R351). -/
def State.pcapLegal (s : State) : Bool := decide (600 ≤ s.ctl.pcap.toNat ∧ s.ctl.pcap.toNat ≤ 1800)

/-- The duty lies at or below 64/64 (R356). -/
def State.dutyLegal (s : State) : Bool := decide (s.duty ≤ 64)

/-- What every step keeps. -/
def State.safe (s : State) : Bool := s.memWf && s.torusLegal && s.pcapLegal && s.dutyLegal

/-! ## Registers as operands read them (R36) -/

/-- x[r]; x0 reads zero. -/
def Ctx.xr (c : Ctx) (r : XReg) : Word := if r = 0 then 0 else tget 0 r.toNat c.regs.x
/-- p[r]; p0 reads true. -/
def Ctx.pr (c : Ctx) (r : XReg) : Bool := if r = 0 then true else tget false r.toNat c.regs.p
/-- m[r]; m0 reads all ones. -/
def Ctx.mr (c : Ctx) (r : MReg) : Word := if r = 0 then BitVec.allOnes 64 else tget 0 r.toNat c.regs.m
/-- v[r]. -/
def Ctx.vr (c : Ctx) (r : VReg) : Row := tget 0 r.toNat c.regs.v

/-! ## Frames: what a step may change, everything else standing as it was -/

/-- Nothing outside context `k` differs. -/
def OnlyCtx (s t : State) (k : CtxKey) : Prop := t = { s with ctxs := t.ctxs } ∧ ∀ j, j ≠ k → t.ctx j = s.ctx j

/-- Nothing outside core `n` differs. -/
def OnlyCore (s t : State) (n : CoreNo) : Prop := t = { s with cores := t.cores } ∧ ∀ j, j ≠ n → t.core j = s.core j

/-- Nothing outside die `d` differs. -/
def OnlyDie (s t : State) (d : Nat) : Prop := t = { s with dies := t.dies } ∧ ∀ j, j ≠ d → t.die j = s.die j

/-- x[r] of the issuing context reads `v`, or nothing where r is x0; nothing else differs. -/
def WritesX (s t : State) (r : XReg) (v : Word) : Prop :=
  OnlyCtx s t s.iss.key ∧ t.me = { s.me with regs := { s.me.regs with x := t.me.regs.x } } ∧
    ∀ q, t.me.xr q = if q = r ∧ q ≠ 0 then v else s.me.xr q

/-- p[d] of the issuing context reads `v` and then p[e] its complement, p0 apart; nothing else differs. -/
def WritesPP (s t : State) (d e : XReg) (v : Bool) : Prop :=
  OnlyCtx s t s.iss.key ∧ t.me = { s.me with regs := { s.me.regs with p := t.me.regs.p } } ∧
    ∀ q, t.me.pr q = if q = 0 then true else if q = e then !v else if q = d then v else s.me.pr q

/-- m[d] of the issuing context reads `v` and then m[e] its complement, m0 apart; stream heads that the sources consume
pass; nothing else differs. -/
def WritesMM (s t : State) (l : List VSrc) (d e : MReg) (v : Word) : Prop :=
  OnlyCtx s t s.iss.key ∧
    t.me = { s.me with regs := { s.me.regs with m := t.me.regs.m }, streams := (s.consume l).me.streams } ∧
    ∀ q, t.me.mr q = if q = 0 then BitVec.allOnes 64 else if q = e then ~~~v else if q = d then v else s.me.mr q

/-- v[r] of the issuing context holds, in each element of width `w` that `en` enables, the value of `f`, and keeps the
others; stream heads that the sources consume pass; the status registers become `st`; nothing else differs. -/
def WritesV (s t : State) (l : List VSrc) (st : StatRegs) (r : VReg) (w : Nat) (en : Nat → Bool) (f : Nat → Nat) : Prop :=
  OnlyCtx s t s.iss.key ∧
    t.me = { s.me with regs := { s.me.regs with v := t.me.regs.v }, streams := (s.consume l).me.streams, stat := st } ∧
    (∀ q, q ≠ r → t.me.vr q = s.me.vr q) ∧
    ∀ k, k < 2048 / w → elem w (t.me.vr r) k = if en k then f k % 2 ^ w else elem w (s.me.vr r) k

/-- v[r] and v[r + 1] of the issuing context hold the keys and payloads of 32 pairs; nothing else differs. -/
def WritesPairs (s t : State) (r : VReg) (l : List (Nat × Nat)) : Prop :=
  OnlyCtx s t s.iss.key ∧ t.me = { s.me with regs := { s.me.regs with v := t.me.regs.v } } ∧
    (∀ q, q ≠ r → q ≠ r + 1 → t.me.vr q = s.me.vr q) ∧
    ∀ k, k < 32 → elem 64 (t.me.vr r) k = (l.getD k (0, 0)).1 % 2 ^ 64 ∧
      elem 64 (t.me.vr (r + 1)) k = (l.getD k (0, 0)).2 % 2 ^ 64

/-- The instruction completes, and its whole effect is that x[r] reads `v`. -/
def ToX (i : Instr) (s : State) (r : XReg) (v : Word) : Prop := ∃ t, exec i s = .next t ∧ WritesX s t r v

/-- The issuing context awaits the reply of no LDROWR.acq or AMOR.acq (R186). -/
def NoAcquire (s : State) : Prop := ∀ m ∈ (s.core s.myCore).msgs, m.key = s.iss.key → m.acq = false

/-- The state in which an instruction with these sources takes effect: one that reads a stream head finds the context's
earlier fused accesses performed (R176; the model's choice, log 11). -/
def State.after (s : State) (l : List VSrc) : State := if (headsOf l).isEmpty then s else s.flush

/-- The sources that name stream heads find them bound to read streams, filled, and free of uncorrectable errors, and no
acquire is awaited (R103, R175, R186, R191; that an error of such a row is found at issue is the model's choice, log 51). -/
def HeadsReady (s : State) (l : List VSrc) : Prop :=
  ∀ sn ∈ headsOf l, (s.me.stream sn).bound = true ∧ (s.me.stream sn).kind = 0 ∧ 0 < (s.me.stream sn).avail ∧
    s.flush.rowBad (rowPlace (s.isFused s.myCore) s.myCore (s.me.stream sn).row).1
      (rowPlace (s.isFused s.myCore) s.myCore (s.me.stream sn).row).2 0 256 = false ∧ NoAcquire s

/-- The status registers with the flags of the enabled elements ORed into SR_FPSTAT (R69). -/
def flagged (s : State) (w : Nat) (mk : MReg) (f : Nat → Nat) : StatRegs :=
  { s.me.stat with fpstat := s.me.stat.fpstat ||| word ((List.range (2048 / w)).foldl (fun a k =>
      if maskOn w (s.rm mk) k then a ||| f k else a) 0) }

/-- Where the heads that the sources name are ready, the instruction completes, and its whole effect is on v[r]: the
elements of width `w` that `en` enables take the values of `f`; the status registers become `st`. -/
def ToV (i : Instr) (s : State) (l : List VSrc) (st : StatRegs) (r : VReg) (w : Nat) (en : Nat → Bool) (f : Nat → Nat) :
    Prop := HeadsReady s l → ∃ t, exec i s = .next t ∧ WritesV (s.after l) t l st r w en f

/-- A floating-point instruction on elements of type `ty`: element `k` takes the first part of `f k` under the mask, and
the second parts of the enabled elements are ORed into SR_FPSTAT (R69, R102). -/
def ToF (i : Instr) (s : State) (l : List VSrc) (ty : ETy) (r : VReg) (mk : MReg) (f : Nat → Nat × Nat) : Prop :=
  ToV i s l (flagged s ty.width mk fun k => (f k).2) r ty.width (maskOn ty.width (s.rm mk)) fun k => (f k).1

/-- One operation is put last into a stream of the issuing core's array; nothing else differs (R131). -/
def Enqueues (s t : State) (st : BitVec 2) (o : MatOp) : Prop :=
  OnlyCore s t s.myCore ∧
    t.core s.myCore = { s.core s.myCore with
      array := { (s.arr s.myCore) with queues := (t.arr s.myCore).queues, issued := (s.arr s.myCore).issued + 1 } } ∧
    ∀ q, (t.arr s.myCore).queue q =
      if q = st then (s.arr s.myCore).queue st ++ [{ o with id := (s.arr s.myCore).issued }] else (s.arr s.myCore).queue q

/-- The earliest clk of the next issue after a branch to a PC: one clk later, or the fetch wait of the next clk where the
block of the target is not resident (R90, R91). -/
def State.branchClk (s : State) (n : CoreNo) (pc : BitVec 55) : Nat :=
  if (s.core n).code.any fun b => b.block == pc.toNat / 128 then s.clk + 2 else (s.core n).nextIssue

/-- A control transfer of the issuing context: the PC becomes `pc`, its core issues no sooner than `next`, x[r] reads
`v`; nothing else differs. -/
def Transfers (s t : State) (pc : BitVec 55) (next : Nat) (r : XReg) (v : Word) : Prop :=
  t = { s with ctxs := t.ctxs, cores := t.cores } ∧
    (∀ j, j ≠ s.iss.key → t.ctx j = s.ctx j) ∧ (∀ j, j ≠ s.myCore → t.core j = s.core j) ∧
    t.core s.myCore = { s.core s.myCore with nextIssue := next } ∧
    t.me = { s.me with pc := pc, regs := { s.me.regs with x := t.me.regs.x } } ∧
    ∀ q, t.me.xr q = if q = r ∧ q ≠ 0 then v else s.me.xr q

/-- A trap taken by context `k`: the record, system mode and the vector of the cause; the registers and memories, and
what else the context holds, stand as they were (R338, R339). -/
def Trapped (s t : State) (k : CtxKey) (tr : TrapRegs) (held : Option HeldOp) (code : Nat) : Prop :=
  t = { s with ctxs := t.ctxs, cores := t.cores, rates := t.rates, ctl := t.ctl } ∧
    (∀ j, j ≠ k → t.ctx j = s.ctx j) ∧
    t.ctx k = { s.ctx k with
      tr := tr, sys := true, pc := BitVec.ofNat 55 (s.ctl.syscode.toNat / 2 + 16 * code)
      held := held.or (s.ctx k).held, save := none, fetchFault := none } ∧
    (∀ j, j ≠ keyCore k → t.core j = s.core j) ∧
    t.core (keyCore k) = { s.core (keyCore k) with
      nextIssue := s.branchClk (keyCore k) (BitVec.ofNat 55 (s.ctl.syscode.toNat / 2 + 16 * code)) }

/-- The instruction, alone in its bundle, traps at issue: the record of R339 with the PC of the bundle. -/
def TrapsAtIssue (i : Instr) (s : State) (code : Nat) (eaddr einfo : Word) : Prop :=
  ∃ t, exec i s = .next t ∧ Trapped s t s.iss.key
    { cause := BitVec.ofNat 64 code, epc := BitVec.ofNat 64 (s.iss.pcb.toNat + if s.me.sys then 2 ^ 63 else 0)
      emask := BitVec.ofNat 64 (2 ^ s.iss.slot.bit), eaddr := eaddr, einfo := einfo } none code

/-- x[rd] of the issuing context waits for the reply of a unit (R42, R256); no context changes otherwise. -/
def AwaitsX (s t : State) (rd : XReg) : Prop :=
  (∀ j, j ≠ s.iss.key → t.ctx j = s.ctx j) ∧ t.me = { s.me with xwait := s.me.xwait ++ if rd = 0 then [] else [rd] }

/-- A reply for x[rd] of context `k` sets out (R256); no context changes otherwise. -/
def Replied (s t : State) (k : CtxKey) (rd : XReg) (v : Word) : Prop :=
  (∀ j, j ≠ k → t.ctx j = s.ctx j) ∧ t.ctx k = { s.ctx k with replies := (s.ctx k).replies ++ [(rd, v)] }

/-- Handle `h` of core `n` becomes `x`; nothing else differs. -/
def OnlyHandle (s t : State) (n : CoreNo) (h : BitVec 6) (x : Handle) : Prop :=
  OnlyCore s t n ∧ t.core n = { s.core n with handles := (t.core n).handles } ∧
    ∀ g, t.handle n g = if g = h then x else s.handle n g

/-- No register of any context, no memory and no core differs: what a unit of a die or of the IOD does to itself. -/
def UnitOnly (s t : State) : Prop :=
  t.ctxs = s.ctxs ∧ t.cores = s.cores ∧ t.dram = s.dram ∧ t.spad = s.spad ∧ t.iss = s.iss ∧ t.clk = s.clk ∧
    t.agenda = s.agenda

/-- A record of an event is put last into the ring that system software reads, or is dropped where the ring is full, and
the last record written counts it (R351; the numbers of the kinds are the model's choice, log 33). -/
def Raised (s t : State) (kind source detail : Nat) : Prop :=
  let n := s.ctl.evctl.toNat % 2 ^ 16
  let rp := s.ctl.evctl.toNat / 2 ^ 16 % 2 ^ 32
  t.events =
    if (s.events.length + 2 ^ 32 - rp) % 2 ^ 32 < n then
      s.events ++ [{ kind := kind, source := source, detail := detail, cycle := s.clk, dropped := 0 }]
    else s.events.dropLast ++ (s.events.getLast?.map fun e => { e with dropped := e.dropped + 1 }).toList

/-- A task slot of a die. -/
def State.taskAt (s : State) (d k : Nat) : Task := tget {} k (s.die d).tasks

/-- No register of any context and no memory differs. -/
def KeepsData (s t : State) : Prop :=
  (∀ k, (t.ctx k).regs = (s.ctx k).regs ∧ (t.ctx k).stat = (s.ctx k).stat ∧ (t.ctx k).tr = (s.ctx k).tr) ∧
    t.dram = s.dram ∧ t.spad = s.spad

/-- What an ABORT of a task id does (R270): the flag of a running task with shares is set, a task that does not run yet
is freed with the next generation, and a stale id has no effect; no register and no memory changes. -/
def Aborts (s t : State) (id : Nat) : Prop :=
  KeepsData s t ∧ (s.findTask id = none → t = s) ∧ ∀ d k x, s.findTask id = some (d, k, x) →
    (x.st = .running → x.shares ≠ 0 → (t.taskAt d k).abort = true ∧ (t.taskAt d k).st = .running) ∧
    (x.st ≠ .running → t.taskAt d k = { gen := x.gen + 1 })

/-! ## The issue of a bundle -/

/-- A slot instruction meets no trap, no wait and no stall where it stands. -/
def Ready (i : Instr) (s : State) : Prop :=
  (semOf i).hold s = false ∧ (semOf i).fault s = none ∧ (semOf i).instead s = none ∧ (semOf i).arrive s = s ∧ (semOf i).block s = [] ∧
    (semOf i).stall s = none

/-- The decoding of a bundle in which one slot holds an instruction and the others NOP. -/
def loneSlots (x : SlotId) (sl : Slot) : List (SlotId × Except DecodeError Slot) :=
  slotOrder.map fun y => (y, .ok (if y = x then sl else ⟨false, 0, .nop⟩))

/-- The next step is the evaluation of bundle `b` by context `k` of core `n`, with the next PC `pcn`: the core may issue,
the context is current and ready, no trap is due, no window holds it, it samples nothing, and fetch finds the bundle. -/
def IssuesNext (s : State) (n : CoreNo) (k : CtxKey) (b : BitVec 384) (pcn : BitVec 55) : Prop :=
  (∃ dt r, s.agenda = .row dt (.bundleIssue n) :: r ∧ s.powered = true ∧ (s.core n).nextIssue ≤ s.clk + dt ∧
      (s.ctx k).trapDue (s.clk + dt) = false) ∧
    keyCore k = n ∧ (s.core n).cur = some (keyCtx k) ∧ (s.ctx k).run = .ready ∧ 64 ≤ s.duty ∧
    s.migWaits k = false ∧ (s.ctx k).waking = false ∧ s.fetch k = .bundle b pcn

/-- The state in which the slots of the bundle of a move `dt` clk away are evaluated: the clk and the schedule moved on,
the operands latched (R40). -/
def State.atIssue (s : State) (n : CoreNo) (k : CtxKey) (pcn : BitVec 55) (b : BitVec 384) : State :=
  let u : State := match s.agenda with | m :: r => s.popped m r | [] => s
  let u := (u.mapCore n fun co =>
    { co with woke := none, evaled := some (u.clk, keyCtx k), nextIssue := u.clk + 1 }).mapCtx k fun c => { c with waking := false }
  let u := u.mapCtx k fun c => { c with fetchFault := none }
  let l := (decodeBundle b).filterMap fun e => match e.2 with | .error _ => none | .ok x => some (e.1, x)
  u.latch k pcn (l.filter fun e => slotEnabled e.2 (u.ctx k))

/-! ## Bytes of the memories -/

/-- The place in the table of scratchpads of byte `a` of a core's extent (R173, R174). -/
def State.spadAddr (s : State) (n : CoreNo) (a : Nat) : Nat :=
  spadKey (rowPlace (s.isFused n) n (a / 256)).1 (rowPlace (s.isFused n) n (a / 256)).2 + a % 256

/-- The only change is to bytes of the scratchpads, to their error marks, and to the dirty masks of
probe slots. -/
def OnlySpad (s t : State) : Prop :=
  t = { s with spad := t.spad, ctxs := t.ctxs } ∧ t.spad = { s.spad with bytes := t.spad.bytes, err := t.spad.err } ∧
    ∀ j, t.ctx j = { s.ctx j with probe := (t.ctx j).probe }

end Sys2Proof.Machine
end

