-- ==== Sys2Proof/Certificates/Slice0/Obligations.lean ====
section
/-! DEFINITION. The statements for the provers. -/

open Sys2Proof Sys2Proof.Machine

/-! ## Scalar instructions (spec/04) -/

/-- The register-register instructions complete in every state, and their whole effect is the new value of x[rd], of
the operands as they stood before the bundle; with rd = 0 nothing is written (R36, R81). Division never traps: by
zero the quotient is all ones and the remainder the dividend, the least number over -1 gives itself and 0, and
otherwise the quotient is truncated toward zero (R82). -/
def Obligations.ScalarRegisterResults : Prop :=
  (∀ (s : State) (rd a b : XReg),
    ToX (.add rd a b) s rd (s.rx a + s.rx b) ∧
    ToX (.sub rd a b) s rd (s.rx a - s.rx b) ∧
    ToX (.and rd a b) s rd (s.rx a &&& s.rx b) ∧
    ToX (.or rd a b) s rd (s.rx a ||| s.rx b) ∧
    ToX (.xor rd a b) s rd (s.rx a ^^^ s.rx b) ∧
    ToX (.andn rd a b) s rd (s.rx a &&& ~~~ s.rx b) ∧
    ToX (.shl rd a b) s rd (s.rx a <<< ((s.rx b).toNat % 64)) ∧
    ToX (.shr rd a b) s rd (s.rx a >>> ((s.rx b).toNat % 64)) ∧
    ToX (.sar rd a b) s rd (BitVec.ofInt 64 ((s.rx a).toInt / 2 ^ ((s.rx b).toNat % 64))) ∧
    ToX (.rol rd a b) s rd ((s.rx a).rotateLeft ((s.rx b).toNat % 64)) ∧
    ToX (.mul rd a b) s rd (s.rx a * s.rx b) ∧
    ToX (.mulh rd a b) s rd (BitVec.ofInt 64 ((s.rx a).toInt * (s.rx b).toInt / 2 ^ 64)) ∧
    ToX (.mulhu rd a b) s rd (BitVec.ofNat 64 ((s.rx a).toNat * (s.rx b).toNat / 2 ^ 64)) ∧
    ToX (.min rd a b) s rd (if (s.rx a).toInt < (s.rx b).toInt then s.rx a else s.rx b) ∧
    ToX (.max rd a b) s rd (if (s.rx a).toInt < (s.rx b).toInt then s.rx b else s.rx a) ∧
    ToX (.minu rd a b) s rd (if (s.rx a).toNat < (s.rx b).toNat then s.rx a else s.rx b) ∧
    ToX (.maxu rd a b) s rd (if (s.rx a).toNat < (s.rx b).toNat then s.rx b else s.rx a)) ∧
  (∀ (s : State) (rd a b : XReg),
    ToX (.div rd a b) s rd
      (if s.rx b = 0 then BitVec.allOnes 64
       else if s.rx a = BitVec.intMin 64 ∧ s.rx b = BitVec.allOnes 64 then BitVec.intMin 64
       else BitVec.ofInt 64 ((s.rx a).toInt.tdiv (s.rx b).toInt)) ∧
    ToX (.rem rd a b) s rd
      (if s.rx b = 0 then s.rx a
       else if s.rx a = BitVec.intMin 64 ∧ s.rx b = BitVec.allOnes 64 then 0
       else BitVec.ofInt 64 ((s.rx a).toInt.tmod (s.rx b).toInt)) ∧
    ToX (.divu rd a b) s rd (if s.rx b = 0 then BitVec.allOnes 64 else s.rx a / s.rx b) ∧
    ToX (.remu rd a b) s rd (if s.rx b = 0 then s.rx a else s.rx a % s.rx b))

/-- The bit-field instructions complete in every state, and their whole effect is the new value of x[rd] (R83). The
immediate instructions and SEL complete in every state, and their whole effect is the new value of x[rd] (R84, R87). -/
def Obligations.BitFieldAndImmediateResults : Prop :=
  (∀ (s : State) (rd a : XReg) (pos lenm1 : BitVec 6),
    (∃ n, n ≤ 64 ∧ ToX (.clz rd a) s rd (BitVec.ofNat 64 n) ∧ (∀ i, 64 - n ≤ i → (s.rx a).getLsbD i = false) ∧
      (n < 64 → (s.rx a).getLsbD (63 - n) = true)) ∧
    (∃ n, n ≤ 64 ∧ ToX (.ctz rd a) s rd (BitVec.ofNat 64 n) ∧ (∀ i, i < n → (s.rx a).getLsbD i = false) ∧
      (n < 64 → (s.rx a).getLsbD n = true)) ∧
    ToX (.popc rd a) s rd (BitVec.ofNat 64 ((List.range 64).countP fun i => (s.rx a).getLsbD i)) ∧
    (∃ v : Word, ToX (.bswap rd a) s rd v ∧
      ∀ i, i < 8 → v.toNat / 256 ^ i % 256 = (s.rx a).toNat / 256 ^ (7 - i) % 256) ∧
    ToX (.extr rd a pos lenm1) s rd (BitVec.ofNat 64 ((s.rx a).toNat / 2 ^ pos.toNat % 2 ^ (lenm1.toNat + 1))) ∧
    (∃ v : Word, ToX (.ins rd a pos lenm1) s rd v ∧ ∀ i, i < 64 → v.getLsbD i =
      if pos.toNat ≤ i ∧ i < pos.toNat + lenm1.toNat + 1 then (s.rx a).getLsbD (i - pos.toNat) else (s.rx rd).getLsbD i) ∧
    (∃ v : Word, ToX (.sext rd a lenm1) s rd v ∧
      ∀ i, i < 64 → v.getLsbD i = (s.rx a).getLsbD (min i lenm1.toNat)) ∧
    ToX (.zext rd a lenm1) s rd (BitVec.ofNat 64 ((s.rx a).toNat % 2 ^ (lenm1.toNat + 1)))) ∧
  (∀ (s : State) (rd a b p : XReg) (imm : BitVec 32) (n : BitVec 6),
    ToX (.addi rd a imm) s rd (s.rx a + imm.signExtend 64) ∧
    ToX (.andi rd a imm) s rd (s.rx a &&& imm.signExtend 64) ∧
    ToX (.ori rd a imm) s rd (s.rx a ||| imm.signExtend 64) ∧
    ToX (.xori rd a imm) s rd (s.rx a ^^^ imm.signExtend 64) ∧
    ToX (.shli rd a n) s rd (s.rx a <<< n.toNat) ∧
    ToX (.shri rd a n) s rd (s.rx a >>> n.toNat) ∧
    ToX (.sari rd a n) s rd (BitVec.ofInt 64 ((s.rx a).toInt / 2 ^ n.toNat)) ∧
    ToX (.li rd imm) s rd (imm.signExtend 64) ∧
    ToX (.lih rd a imm) s rd (BitVec.ofNat 64 (imm.toNat * 2 ^ 32 + (s.rx a).toNat % 2 ^ 32)) ∧
    ToX (.sel rd p a b) s rd (if s.rp p then s.rx a else s.rx b))

/-- The compares and PLOG complete in every state; their whole effect is that p[pd] takes the result and p[pe] its
complement, and neither is written where the field names p0 (R36, R85, R86). -/
def Obligations.PredicateResults : Prop :=
  ∀ (s : State) (pd pe a b : XReg) (imm : BitVec 26) (c : Cond) (op : LogOp),
    let holds : Word → Word → Bool := fun x y => match c with
      | .eq => decide (x = y) | .ne => decide (x ≠ y)
      | .lt => decide (x.toInt < y.toInt) | .le => decide (x.toInt ≤ y.toInt)
      | .gt => decide (y.toInt < x.toInt) | .ge => decide (y.toInt ≤ x.toInt)
      | .ltu => decide (x.toNat < y.toNat) | .leu => decide (x.toNat ≤ y.toNat)
      | .gtu => decide (y.toNat < x.toNat) | .geu => decide (y.toNat ≤ x.toNat)
      | .tst => decide (x &&& y ≠ 0) | .ntst => decide (x &&& y = 0)
    let log : Bool → Bool → Bool := fun x y => match op with
      | .and => x && y | .or => x || y | .xor => x ^^ y | .andn => x && !y | .orn => x || !y | .nand => !(x && y)
      | .nor => !(x || y) | .xnor => !(x ^^ y) | .mov => x | .not => !x
    (∃ t, exec (.cmp c pd pe a b) s = .next t ∧ WritesPP s t pd pe (holds (s.rx a) (s.rx b))) ∧
    (∃ t, exec (.cmpi c pd pe a imm) s = .next t ∧ WritesPP s t pd pe (holds (s.rx a) (imm.signExtend 64))) ∧
    (∃ t, exec (.plog op pd pe a b) s = .next t ∧ WritesPP s t pd pe (log (s.rp a) (s.rp b)))

/-- BR, BRX, CALL and RET complete in every state: the PC becomes the target, CALL writes the PC of the next bundle, and
the core issues nothing on the next clk, which a fetch wait takes where the target's block is not resident (R88, R90, R91).
LOOP completes in every state: above 1 it counts down and branches without a bubble; else it writes 0 and falls through;
with rd = x0 it never branches (R89, R90). -/
def Obligations.ControlTransfers : Prop :=
  (∀ (s : State) (rd rs : XReg) (imm : BitVec 32),
    let goes : Instr → BitVec 55 → XReg → Word → Prop := fun i pc r v => ∃ t, exec i s = .next t ∧
      Transfers s t pc (s.branchClk s.myCore pc) r v
    goes (.br imm) (s.iss.pcb + imm.signExtend 55) 0 0 ∧
    goes (.brx rs imm) (BitVec.ofNat 55 ((s.rx rs).toNat + (imm.signExtend 64).toNat)) 0 0 ∧
    goes (.call rd imm) (s.iss.pcb + imm.signExtend 55) rd (BitVec.ofNat 64 s.iss.pcn.toNat) ∧
    goes (.ret rs) (BitVec.ofNat 55 (s.rx rs).toNat) 0 0) ∧
  (∀ (s : State) (rd : XReg) (imm : BitVec 32),
    (1 < (s.rx rd).toNat → ∃ t, exec (.loop rd imm) s = .next t ∧
      Transfers s t (s.iss.pcb + imm.signExtend 55) (s.core s.myCore).nextIssue rd (s.rx rd - 1)) ∧
    ((s.rx rd).toNat ≤ 1 → ToX (.loop rd imm) s rd 0) ∧
    (rd = 0 → ToX (.loop rd imm) s rd 0))

/-- LDS completes where the row lies in the extent, the field has no uncorrectable error and no acquire is awaited: of a
row of the own core it reads the 8 bytes of the field, lowest first, and leaves every byte of memory as it was; STS
completes where the row lies in the extent and no acquire is awaited: of a row of the own core it writes the 8 bytes of the
field, lowest first, every other byte of every memory reads as before, and no register changes (R3, R92, R93, R173). Of a
row of another core of a fused cluster both issue and take effect later, in issue order: a register then takes its value,
and a store writes its bytes (R176); that the context's earlier such accesses are performed by the time an access to an own
row is, is the model's choice (log 11). A scalar access outside the extent, with no acquire awaited, takes the scratchpad
range trap with SR_EADDR at the address, and stores nothing; while one is awaited both wait at their bundle and change
nothing (R46, R173, R186, R339). -/
def Obligations.ScalarAccess : Prop :=
  (∀ (s : State) (r base : XReg) (off : BitVec 32),
    let ea := s.rx base + off.signExtend 64
    let u := s.flush
    let pl := rowPlace (s.isFused s.myCore) s.myCore (ea.toNat / 256)
    let at_ := s.spadAddr s.myCore (ea.toNat / 8 * 8)
    let lo := ea.toNat % 256 / 8 * 8
    let later : Instr → FusedKind → List XReg → Prop := fun i kind w => ∃ t, exec i s = .next t ∧ OnlyCtx s t s.iss.key ∧
      t.me = { s.me with acc := s.me.acc + 1, xwait := s.me.xwait ++ w, fused := s.me.fused ++
        [{ num := s.me.acc, core := pl.1, row := pl.2, kind := kind }] }
    ea.toNat < s.extent s.myCore → NoAcquire s →
    (tget false (at_ / 16) s.spad.err = false → pl.1 = s.myCore.toNat →
      ∃ t, exec (.lds r base off) s = .next t ∧ WritesX u t r (BitVec.ofNat 64 (ofBytes ((List.range 8).map fun i =>
        tget 0 (at_ + i) u.spad.bytes)))) ∧
    (tget false (at_ / 16) s.spad.err = false → pl.1 ≠ s.myCore.toNat →
      later (.lds r base off) (.field r lo) (if r = 0 then [] else [r])) ∧
    (pl.1 = s.myCore.toNat → ∃ t, exec (.sts r base off) s = .next t ∧ OnlySpad u t ∧ t.spad.err = u.spad.err ∧
      ∀ j, tget 0 j t.spad.bytes = if at_ ≤ j ∧ j < at_ + 8 then BitVec.ofNat 8 ((s.rx r).toNat / 256 ^ (j - at_))
        else tget 0 j u.spad.bytes) ∧
    (pl.1 ≠ s.myCore.toNat → ∃ mask data, later (.sts r base off) (.store mask data) [] ∧
      (∀ i, i < 256 → mask.getLsbD i = decide (lo ≤ i ∧ i < lo + 8)) ∧
      ∀ i, i < 8 → elem 8 data (lo + i) = (s.rx r).toNat / 256 ^ i % 256)) ∧
  (∀ (s : State) (k : CtxKey) (o : FusedOp) (rest : List FusedOp), s.powered = true → (s.ctx k).fused = o :: rest →
    ∃ t, s.minor (.fused k) = .next t ∧ t = { s with spad := t.spad, ctxs := t.ctxs } ∧ (t.ctx k).fused = rest ∧
      (∀ rd lo, o.kind = .field rd lo → rd ∈ (s.ctx k).xwait → t.spad = s.spad ∧
        (t.ctx k).xwait = (s.ctx k).xwait.erase rd ∧ ∀ q, (t.ctx k).xr q = if q = rd ∧ q ≠ 0
          then BitVec.ofNat 64 (elem 64 (s.localRow o.core o.row) (lo / 8)) else (s.ctx k).xr q) ∧
      (∀ mask data, o.kind = .store mask data → (t.ctx k).regs = (s.ctx k).regs ∧ ∀ j, tget 0 j t.spad.bytes =
        let r := spadKey o.core o.row
        if r ≤ j ∧ j < r + 256 ∧ mask.getLsbD (j - r) = true then BitVec.ofNat 8 (elem 8 data (j - r))
        else tget 0 j s.spad.bytes)) ∧
  (∀ (s : State) (r base : XReg) (off : BitVec 32),
    (s.extent s.myCore ≤ (s.rx base + off.signExtend 64).toNat → NoAcquire s →
      TrapsAtIssue (.lds r base off) s 9 (s.rx base + off.signExtend 64) 0 ∧
      TrapsAtIssue (.sts r base off) s 9 (s.rx base + off.signExtend 64) 0) ∧
    (¬ NoAcquire s → exec (.lds r base off) s = .next s ∧ exec (.sts r base off) s = .next s))

/-- SRGET of a register that the mode may read completes with the value as of the issue clk, and writes nothing else (R94,
R95, R96). SRSET of a register that the mode may write completes: the named register takes x[rs] in its writable fields,
every other part of the state stands, and a register whose every field is read-only does not change; the flags of M
operations that complete on the same clk are ORed into SR_FPSTAT after the write (R68, R69, R94, R339). Outside system mode
an access to a trap register takes the protection trap, and neither reads nor writes it (R94). -/
def Obligations.SystemRegisters : Prop :=
  (∀ (s : State) (rd : XReg),
    ToX (.srget rd 0x000) s rd (BitVec.ofNat 64 ((keyCore s.iss.key).toNat + s.torus.coord.toNat % 4096 * 65536)) ∧
    ToX (.srget rd 0x001) s rd
      (BitVec.ofNat 64 ((keyCtx s.iss.key).toNat + if s.iss.evt then 256 else 0)) ∧
    ToX (.srget rd 0x002) s rd (BitVec.ofNat 64 (if s.me.sys then 1 else 0)) ∧
    ToX (.srget rd 0x003) s rd (BitVec.ofNat 64 s.clk) ∧
    ToX (.srget rd 0x004) s rd (BitVec.ofNat 64 (s.me.share.task % 2 ^ 32 + (if s.me.share.held then 2 ^ 32 else 0) +
      (if s.me.share.early then 2 ^ 33 else 0) + if s.me.share.abf then 2 ^ 34 else 0)) ∧
    ToX (.srget rd 0x005) s rd (BitVec.ofNat 64 s.me.share.tag.toNat) ∧
    (∃ v, ToX (.srget rd 0x006) s rd v ∧ (∀ i, 36 ≤ i → v.getLsbD i = false) ∧ ∀ i, i < 4 →
      v.getLsbD (32 + i) = decide (i < (s.coreGroups s.myCore).length) ∧
      v.toNat / 256 ^ i % 256 = (s.coreGroups s.myCore).getD i 0) ∧
    ToX (.srget rd 0x007) s rd (BitVec.ofNat 64 ((if s.me.budget.counting
      then s.me.budget.remain - (s.clk - s.me.budget.since) else s.me.budget.remain) % 2 ^ 48 +
      if s.me.budget.off then 2 ^ 48 else 0)) ∧
    ToX (.srget rd 0x010) s rd s.iss.stat.fpstat ∧ ToX (.srget rd 0x011) s rd s.iss.stat.optstat ∧
    ToX (.srget rd 0x012) s rd s.iss.stat.rndseed ∧ ToX (.srget rd 0x013) s rd s.iss.stat.rndctr ∧
    ToX (.srget rd 0x030) s rd s.funcready ∧
    (s.me.sys = true → ToX (.srget rd 0x020) s rd s.iss.tr.cause ∧ ToX (.srget rd 0x021) s rd s.iss.tr.epc ∧
      ToX (.srget rd 0x022) s rd s.iss.tr.emask ∧ ToX (.srget rd 0x023) s rd s.iss.tr.eaddr ∧
      ToX (.srget rd 0x024) s rd s.iss.tr.einfo)) ∧
  ((∀ (s : State) (rs : XReg) (sr : BitVec 12), (s.me.sys = true ∨ sr.toNat < 0x020 ∨ 0x024 < sr.toNat) →
    ∃ t, exec (.srset sr rs) s = .next t ∧ OnlyCtx s t s.iss.key ∧
      t.me = { s.me with stat := t.me.stat, tr := t.me.tr } ∧
      t.me.stat = { fpstat := if sr = 0x010 then s.rx rs &&& 0x3F ||| (if s.me.late.1 = s.clk then s.me.late.2 else 0)
                      else s.me.stat.fpstat
                    optstat := if sr = 0x011 then s.rx rs &&& 0xFFFFFFFF0001 else s.me.stat.optstat
                    rndseed := if sr = 0x012 then s.rx rs else s.me.stat.rndseed
                    rndctr := if sr = 0x013 then s.rx rs else s.me.stat.rndctr } ∧
      t.me.tr = { cause := if sr = 0x020 then s.rx rs &&& 0x7FF else s.me.tr.cause
                  epc := if sr = 0x021 then s.rx rs &&& 0x807FFFFFFFFFFFFF else s.me.tr.epc
                  emask := if sr = 0x022 then s.rx rs &&& 0x3F else s.me.tr.emask
                  eaddr := if sr = 0x023 then s.rx rs else s.me.tr.eaddr
                  einfo := if sr = 0x024 then s.rx rs else s.me.tr.einfo }) ∧
  (∀ (s : State) (r : XReg) (sr : BitVec 12), s.me.sys = false → 0x020 ≤ sr.toNat → sr.toNat ≤ 0x024 →
    TrapsAtIssue (.srget r sr) s 8 0 0 ∧ TrapsAtIssue (.srset sr r) s 8 0 0))

/-- NOP changes nothing; WFE with the event latch set completes with 1 and clears the latch, once its timeout has passed
since its bundle's first park it completes with 0, and otherwise it parks (a WFE that has not parked waits whatever its
timeout: the model's choice, log 22), or parks again, the clk of its bundle's first park standing; SEV sets the latches of
the masked contexts of its own core and nothing else (a clear of the latch on the same clk is ordered by the schedule, log
41); a remote SEV with an empty mask sends nothing, and with another one puts one message last where the target's cluster is
ready, fewer than 64 messages are in flight and no acquire is awaited, and takes the protection trap where the cluster is
not ready and no acquire is awaited (R34, R99, R100, R183, R186). -/
def Obligations.EventsAndNop : Prop :=
  ∀ (s : State) (rd rs : XReg) (timeout : BitVec 32) (mask : BitVec 4) (since : Nat),
    let c := s.me
    let dst : CoreNo := BitVec.ofNat 12 (s.rx rs).toNat
    let parked := if c.sys then c.wfeSys else c.wfe
    let ready := tget false (dst.toNat / 16) s.clReady
    let wakes : Bool → Prop := fun e => ∃ t, exec (.wfe rd timeout) s = .next t ∧ OnlyCtx s t s.iss.key ∧
      t.me = { c with regs := { c.regs with x := t.me.regs.x }, evt := false
                      wfe := if c.sys then c.wfe else none, wfeSys := if c.sys then none else c.wfeSys } ∧
      ∀ q, t.me.xr q = if q = rd ∧ q ≠ 0 then (if e then 1 else 0) else c.xr q
    exec .nop s = .next s ∧
    (c.evt = true → wakes true) ∧
    (c.evt = false → parked = some (s.iss.pcb, since) → timeout ≠ 0 → since + timeout.toNat ≤ s.clk → wakes false) ∧
    (c.evt = false → parked = none → c.stop ≠ .running → ∃ t, exec (.wfe rd timeout) s = .next t ∧ KeepsData s t ∧
      t.me.run = .parked [.event timeout] ∧ t.me.pc = c.pc ∧
      (if c.sys then t.me.wfeSys else t.me.wfe) = some (s.iss.pcb, s.clk)) ∧
    (c.evt = false → parked = some (s.iss.pcb, since) → (timeout = 0 ∨ s.clk < since + timeout.toNat) →
      c.stop ≠ .running → ∃ t, exec (.wfe rd timeout) s = .next t ∧ KeepsData s t ∧
        t.me.run = .parked [.event timeout] ∧ t.me.pc = c.pc ∧ t.me.evt = false ∧
        t.me.wfe = c.wfe ∧ t.me.wfeSys = c.wfeSys) ∧
    (∃ t, exec (.sev mask) s = .next t ∧ t = { s with ctxs := t.ctxs } ∧
      ∀ k, t.ctx k = { s.ctx k with
        evt := (s.ctx k).evt || (decide (keyCore k = s.myCore) && mask.getLsbD (keyCtx k).toNat) }) ∧
    exec (.sevRemote rs 0) s = .next s ∧
    (mask ≠ 0 → ready = true → (s.core s.myCore).msgs.length < 64 → NoAcquire s →
      ∃ t, exec (.sevRemote rs mask) s = .next t ∧ t = { s with ctxs := t.ctxs, cores := t.cores } ∧
        (∀ k, k ≠ s.iss.key → t.ctx k = s.ctx k) ∧ t.me = { c with acc := c.acc + 1 } ∧
        (∀ n, n ≠ s.myCore → t.core n = s.core n) ∧
        t.core s.myCore = { s.core s.myCore with msgs := (s.core s.myCore).msgs ++
          [{ num := c.acc, key := s.iss.key, dst := dst, kind := .sev mask, acq := false, reply := none }] }) ∧
    (mask ≠ 0 → ready = false → NoAcquire s → TrapsAtIssue (.sevRemote rs mask) s 8 0 (BitVec.ofNat 64 dst.toNat))

/-! ## Vector instructions (spec/05) -/

/-- The floating-point instructions complete where the stream heads they name are ready; each enabled element takes the
result on the source elements as they stood before the bundle, the flags of the enabled elements are ORed into
SR_FPSTAT, and nothing else changes but the heads consumed (R69, R102, R103, R105). That a head is read after the context's
earlier fused accesses (State.after, log 11), and that an error of its row is found at issue (HeadsReady, log 51), is the
model's choice. -/
def Obligations.VectorFloatResults : Prop :=
  ∀ (s : State) (ty : ETy) (vd : VReg) (a b c : VSrc) (mk : MReg), ty.isVF = true →
    let A : Nat → Nat := elem ty.width (s.src a)
    let B : Nat → Nat := elem ty.width (s.src b)
    let C : Nat → Nat := elem ty.width (s.src c)
    ToF (.vfadd ty vd a b mk) s [a, b] ty vd mk (fun k => ty.fmt.add (A k) (B k)) ∧
    ToF (.vfsub ty vd a b mk) s [a, b] ty vd mk (fun k => ty.fmt.sub (A k) (B k)) ∧
    ToF (.vfmul ty vd a b mk) s [a, b] ty vd mk (fun k => ty.fmt.mul (A k) (B k)) ∧
    ToF (.vfdiv ty vd a b mk) s [a, b] ty vd mk (fun k => ty.fmt.div (A k) (B k)) ∧
    ToF (.vfmin ty vd a b mk) s [a, b] ty vd mk (fun k => (ty.fmt.min (A k) (B k), 0)) ∧
    ToF (.vfmax ty vd a b mk) s [a, b] ty vd mk (fun k => (ty.fmt.max (A k) (B k), 0)) ∧
    ToF (.vfma ty vd a b c mk) s [a, b, c] ty vd mk (fun k => ty.fmt.fma (A k) (B k) (C k)) ∧
    ToF (.vfms ty vd a b c mk) s [a, b, c] ty vd mk (fun k => ty.fmt.fms (A k) (B k) (C k)) ∧
    ToF (.vfnma ty vd a b c mk) s [a, b, c] ty vd mk (fun k => ty.fmt.fnma (A k) (B k) (C k)) ∧
    ToF (.vfsqrt ty vd a mk) s [a] ty vd mk (fun k => ty.fmt.sqrt (A k)) ∧
    ToF (.vfrcp ty vd a mk) s [a] ty vd mk (fun k => ty.fmt.rcp (A k)) ∧
    ToF (.vfrsq ty vd a mk) s [a] ty vd mk (fun k => ty.fmt.rsq (A k)) ∧
    ToF (.vfexp2 ty vd a mk) s [a] ty vd mk (fun k => ty.fmt.exp2 (A k)) ∧
    ToF (.vflog2 ty vd a mk) s [a] ty vd mk (fun k => ty.fmt.log2 (A k)) ∧
    ToV (.vfabs ty vd a mk) s [a] s.me.stat vd ty.width (maskOn ty.width (s.rm mk)) (fun k => A k % 2 ^ (ty.width - 1)) ∧
    ToV (.vfneg ty vd a mk) s [a] s.me.stat vd ty.width (maskOn ty.width (s.rm mk))
      (fun k => A k + 2 ^ (ty.width - 1)) ∧
    ToV (.vfclass ty vd a mk) s [a] s.me.stat vd ty.width (maskOn ty.width (s.rm mk))
      (fun k => 2 ^ ty.fmt.classOf (A k))

/-- Every code of a format that is no infinity and no NaN decodes to a value that converts back to it exactly, in every
rounding mode and without flags (R57, R65). The conversion of a finite value keeps its sign; where it does not overflow it
gives a code next to the value: under RNE a nearest one, of two the one whose mantissa is even, under RZ, RU and RD the next
one in that direction, and under SR the one away from zero where the draw lies below the fraction; inexact is set where the
code is not the value, and underflow with it below the smallest normal. A value up to the largest finite one does not
overflow; one that does sets overflow and inexact and gives an infinity or the largest finite value of its sign (R65). -/
def Obligations.FormatCodesAreExact : Prop :=
  (∀ (ty : ETy) (rnd : Rnd) (u c : Nat), ty.isFloat = true → c < 2 ^ ty.width →
    (∃ neg m e, ty.fmt.decode c = .fin neg m e) → ty.fmt.cvt rnd u (ty.fmt.decode c) = (c, 0)) ∧
  (∀ (ty : ETy) (rnd : Rnd) (u : Nat) (neg : Bool) (m : Nat) (e : Int), ty.isFloat = true →
    let f := ty.fmt
    let least : Int := 1 - f.bias - f.mbits
    let b := min e least
    let val : Bool → Nat → Int → Int := fun g n p => (if g then -1 else 1) * ((n * 2 ^ (p - b).toNat : Nat) : Int)
    let is : Nat → Int → Prop := fun c v => c < 2 ^ ty.width ∧ ∃ g n p, f.decode c = .fin g n p ∧ v = val g n p
    let x := val neg m e
    let r := f.cvt rnd u (.fin neg m e)
    let ovf := r.2 / 2 % 2 = 1
    f.neg r.1 = neg ∧
    (¬ ovf → ∃ y, is r.1 y ∧
      (rnd = .rne → ∀ c v, is c v → (x - y).natAbs ≤ (x - v).natAbs ∧
        ((x - y).natAbs = (x - v).natAbs → v ≠ y → r.1 % 2 = 0)) ∧
      (rnd = .rz → y.natAbs ≤ x.natAbs ∧ ∀ c v, is c v → v.natAbs ≤ x.natAbs → v.natAbs ≤ y.natAbs) ∧
      (rnd = .ru → x ≤ y ∧ ∀ c v, is c v → x ≤ v → y ≤ v) ∧
      (rnd = .rd → y ≤ x ∧ ∀ c v, is c v → v ≤ x → v ≤ y) ∧
      (rnd = .sr → ∀ c lo hi, is c lo → is (c + 1) hi → f.neg c = neg → lo.natAbs < x.natAbs → x.natAbs < hi.natAbs →
        r.1 = if u * (hi.natAbs - lo.natAbs) < (x.natAbs - lo.natAbs) * 2 ^ 32 then c + 1 else c) ∧
      r.2 = if y = x then 0
        else fINX + if y.natAbs < 2 ^ (f.mbits + (least - b).toNat) then fUNF else 0) ∧
    (∀ g v, is (f.signed g f.maxMag) v → x.natAbs ≤ v.natAbs → ¬ ovf) ∧
    (ovf → r.2 = fINX ||| fOVF ∧ r.1 = f.signed neg
      (if f.sp = .ieee ∧ (rnd = .rne ∨ rnd = .sr ∨ (rnd = .ru ∧ neg = false) ∨ (rnd = .rd ∧ neg = true)) then f.infMag
       else f.maxMag)))

/-- The integer and logic instructions complete where the heads they name are ready; each enabled element takes the result
on the source elements modulo 2^w, no flag is set, and nothing else changes (R102, R107). That a head is read after the
context's earlier fused accesses (State.after, log 11), and that an error of its row is found at issue (HeadsReady, log 51),
is the model's choice. -/
def Obligations.VectorIntegerResults : Prop :=
  ∀ (s : State) (ty : ETy) (vd : VReg) (a b : VSrc) (mk : MReg), ty.isInt = true →
    let w := ty.width
    let A : Nat → Nat := elem w (s.src a)
    let B : Nat → Nat := elem w (s.src b)
    let I : Nat → Int := toI w
    let sat : Int → Nat := fun v => ofI w (max (-(2 ^ (w - 1))) (min (2 ^ (w - 1) - 1) v))
    let two : Instr → (Nat → Nat) → Prop := fun i f => ToV i s [a, b] s.me.stat vd w (maskOn w (s.rm mk)) f
    two (.vadd ty vd a b mk) (fun k => A k + B k) ∧
    two (.vsub ty vd a b mk) (fun k => A k + 2 ^ w - B k) ∧
    two (.vmul ty vd a b mk) (fun k => A k * B k) ∧
    two (.vmulh ty vd a b mk) (fun k => ofI w (I (A k) * I (B k) / 2 ^ w)) ∧
    two (.vmin ty vd a b mk) (fun k => if I (A k) ≤ I (B k) then A k else B k) ∧
    two (.vmax ty vd a b mk) (fun k => if I (A k) ≤ I (B k) then B k else A k) ∧
    two (.vminu ty vd a b mk) (fun k => min (A k) (B k)) ∧
    two (.vmaxu ty vd a b mk) (fun k => max (A k) (B k)) ∧
    two (.vand ty vd a b mk) (fun k => A k &&& B k) ∧
    two (.vor ty vd a b mk) (fun k => A k ||| B k) ∧
    two (.vxor ty vd a b mk) (fun k => A k ^^^ B k) ∧
    two (.vandn ty vd a b mk) (fun k => A k &&& (2 ^ w - 1 - B k)) ∧
    two (.vshl ty vd a b mk) (fun k => A k * 2 ^ (B k % w)) ∧
    two (.vshr ty vd a b mk) (fun k => A k / 2 ^ (B k % w)) ∧
    two (.vsar ty vd a b mk) (fun k => ofI w (I (A k) / 2 ^ (B k % w))) ∧
    two (.vadds ty vd a b mk) (fun k => sat (I (A k) + I (B k))) ∧
    two (.vsubs ty vd a b mk) (fun k => sat (I (A k) - I (B k))) ∧
    ToV (.vabs ty vd a mk) s [a] s.me.stat vd w (maskOn w (s.rm mk)) (fun k => (I (A k)).natAbs)

/-- The vector compares and MLOG complete where the heads they name are ready: m[md] takes one bit for each lane and
m[me] the complement, m0 is never written; MCNT and MFIRST write the count of ones and the lowest one, or 64
(R108, R109). That a head is read after the context's earlier fused accesses (State.after, log 11), and that an error of its
row is found at issue (HeadsReady, log 51), is the model's choice. -/
def Obligations.MaskResults : Prop :=
  ∀ (s : State) (c : Cond) (fc : VfCond) (op : LogOp) (ty : ETy) (md me ma mb : MReg) (a b : VSrc) (sel : BitVec 2)
    (xd : XReg),
    let w := ty.width
    let lane : Nat → Nat := fun i =>
      if w = 64 then i / 2 else if w = 32 then i else if w = 16 then 2 * i + sel.toNat else 4 * i + sel.toNat
    let A : Nat → Nat := fun i => elem w (s.src a) (lane i)
    let B : Nat → Nat := fun i => elem w (s.src b) (lane i)
    (ty.isInt = true → HeadsReady s [a, b] → ∃ t v, exec (.vcmp c ty md me a b sel) s = .next t ∧
      WritesMM (s.after [a, b]) t [a, b] md me v ∧ ∀ i, i < 64 → v.getLsbD i = condElem c w (A i) (B i)) ∧
    (ty.isVF = true → HeadsReady s [a, b] → ∃ t v, exec (.vfcmp fc ty md me a b sel) s = .next t ∧
      WritesMM (s.after [a, b]) t [a, b] md me v ∧
      ∀ i, i < 64 → v.getLsbD i = condF fc (ty.fmt.decode (A i)) (ty.fmt.decode (B i))) ∧
    (∃ t v, exec (.mlog op md me ma mb) s = .next t ∧ WritesMM s t [] md me v ∧
      ∀ i, i < 64 → v.getLsbD i = logHolds op ((s.rm ma).getLsbD i) ((s.rm mb).getLsbD i)) ∧
    ToX (.mcnt xd ma) s xd (BitVec.ofNat 64 ((List.range 64).countP fun i => (s.rm ma).getLsbD i)) ∧
    (∃ n, n ≤ 64 ∧ ToX (.mfirst xd ma) s xd (BitVec.ofNat 64 n) ∧ (∀ i, i < n → (s.rm ma).getLsbD i = false) ∧
      (n < 64 → (s.rm ma).getLsbD n = true))

/-- VCVT, VCVTU, VUNPK and VRAND complete where the heads they name are ready: the enabled elements of the part take the
converted values, a random rounding advances EIDX by the number of elements, and nothing else changes (R70, R111, R112,
R114, R128). That a head is read after the context's earlier fused accesses (State.after, log 11), and that an error of its
row is found at issue (HeadsReady, log 51), is the model's choice. -/
def Obligations.ConversionResults : Prop :=
  ∀ (s : State) (d sT : ETy) (rnd : Rnd) (vd : VReg) (a : VSrc) (mk : MReg) (part : BitVec 4) (p : BitVec 3),
    let n := 2048 / max d.width sT.width
    let dBase := if d.width < sT.width then part.toNat * n else 0
    let sBase := if sT.width < d.width then part.toNat * n else 0
    let on : Nat → Bool := fun j => maskOn (max d.width sT.width) (s.rm mk) j
    let res : Bool → Nat → Nat × Nat := fun sg j =>
      cvtElem sg d sT rnd (drawHigh (s.me.draws j)) (elem sT.width (s.src a) (sBase + j))
    let st : Bool → StatRegs := fun sg => { s.me.stat with
      fpstat := s.me.stat.fpstat ||| word ((List.range n).foldl (fun f j => if on j then f ||| (res sg j).2 else f) 0)
      rndctr := if rnd = .sr then advanceCtr s.me.stat.rndctr n else s.me.stat.rndctr }
    let en : Nat → Bool := fun k => decide (dBase ≤ k ∧ k < dBase + n) && on (k - dBase)
    ((Instr.vcvt d sT rnd vd a mk part).wf = true →
      ToV (.vcvt d sT rnd vd a mk part) s [a] (st true) vd d.width en (fun k => (res true (k - dBase)).1)) ∧
    ((Instr.vcvtu d sT rnd vd a mk part).wf = true →
      ToV (.vcvtu d sT rnd vd a mk part) s [a] (st false) vd d.width en (fun k => (res false (k - dBase)).1)) ∧
    ToV (.vunpk vd a mk p) s [a] s.me.stat vd 16 (maskOn 16 (s.rm mk)) (fun k =>
      let q := elem 16 (s.src a) (16 * p.toNat + k / 8)
      ((ETy.fmt .bf16).rne (fvOfInt (lq2Quarters (tget 0 (q / 256) (s.arr s.myCore).codebook) q (k % 8)) (-2))).1) ∧
    ((Instr.vrand d vd mk).wf = true →
      ToV (.vrand d vd mk) s [] { s.me.stat with rndctr := advanceCtr s.me.stat.rndctr d.count } vd d.width
        (maskOn d.width (s.rm mk)) (fun k => randElem d (s.me.draws k)))

/-- VSEL and the permutes complete where the heads they name are ready: each enabled element takes the element that R110 and
R115 to R117 name, and nothing else changes. That a head is read after the context's earlier fused accesses (State.after,
log 11), and that an error of its row is found at issue (HeadsReady, log 51), is the model's choice. -/
def Obligations.PermuteResults : Prop :=
  ∀ (s : State) (ty : ETy) (vd : VReg) (a b c : VSrc) (mk : MReg) (xd xs : XReg) (idx : BitVec 16) (h : Bool)
    (sh : BitVec 8), ty.isByte = true →
    let w := ty.width
    let n := 2048 / w
    let A : Nat → Nat := elem w (s.src a)
    let B : Nat → Nat := elem w (s.src b)
    let C : Nat → Nat := elem w (s.src c)
    let both : Nat → Nat := fun j => if j < n then A j else B (j - n)
    let on : Nat → Bool := maskOn w (s.rm mk)
    let bytes : Nat → Nat := fun j => if j < 256 then elem 8 (s.src a) j else elem 8 (s.src b) (j - 256)
    ToV (.vsel ty vd a b mk) s [a, b] s.me.stat vd w (fun _ => true) (fun k => if on k then A k else B k) ∧
    ToV (.vbcast ty vd a mk idx) s [a] s.me.stat vd w on (fun _ => A idx.toNat) ∧
    ToV (.vbcastScalar ty vd xs mk) s [] s.me.stat vd w on (fun _ => (s.rx xs).toNat) ∧
    ToV (.vins ty vd xs idx) s [] s.me.stat vd w (fun _ => true)
      (fun k => if k = idx.toNat then (s.rx xs).toNat else elem w (s.rv vd) k) ∧
    (HeadsReady s [a] → ∃ t, exec (.vext ty xd a idx) s = .next t ∧
      let z := s.after [a]
      OnlyCtx z t s.iss.key ∧
      t.me = { z.me with regs := { z.me.regs with x := t.me.regs.x }, streams := (z.consume [a]).me.streams } ∧
      ∀ q, t.me.xr q = if q = xd ∧ q ≠ 0 then BitVec.ofNat 64 (A idx.toNat) else z.me.xr q) ∧
    ToV (.vperm ty vd a b mk) s [a, b] s.me.stat vd w on (fun k => A (B k % n)) ∧
    ToV (.vperm2 ty vd a b c mk) s [a, b, c] s.me.stat vd w on (fun k => both (C k % (2 * n))) ∧
    ToV (.vzip h ty vd a b mk) s [a, b] s.me.stat vd w on
      (fun k => if k % 2 = 0 then A ((if h then n / 2 else 0) + k / 2) else B ((if h then n / 2 else 0) + k / 2)) ∧
    ToV (.vunzip h ty vd a b mk) s [a, b] s.me.stat vd w on (fun k => both (2 * k + if h then 1 else 0)) ∧
    ToV (.vcomp ty vd a mk) s [a] s.me.stat vd w (fun _ => true)
      (fun k => (((List.range n).filter on).map A).getD k 0) ∧
    ToV (.vexpd ty vd a mk) s [a] s.me.stat vd w (fun _ => true)
      (fun k => if on k then A ((List.range k).countP on) else 0) ∧
    ToV (.vrotm vd a b mk sh) s [a, b] s.me.stat vd 8 (fun k => (s.rm mk).getLsbD (k / 4)) (fun k => bytes (k + sh.toNat)) ∧
    ToV (.vrotmScalar vd a b mk xs) s [a, b] s.me.stat vd 8 (fun k => (s.rm mk).getLsbD (k / 4))
      (fun k => bytes (k + (s.rx xs).toNat % 256))

/-- The reductions complete where the head they name is ready: element 0 takes the result and every other element is zero; a
masked-off element contributes the identity (R118, R119). That a head is read after the context's earlier fused accesses
(State.after, log 11), and that an error of its row is found at issue (HeadsReady, log 51), is the model's choice. -/
def Obligations.ReductionResults : Prop :=
  ∀ (s : State) (ty : ETy) (vd : VReg) (a : VSrc) (mk : MReg),
    let w := ty.width
    let A : Nat → Nat := elem w (s.src a)
    let on : Nat → Bool := maskOn w (s.rm mk)
    let terms : List Nat := (List.range (2048 / w)).map fun k =>
      (fmt32.rne (ty.fmt.decode (if on k then A k else ty.fmt.signed true 0))).1
    let sum := treeSum (if w = 16 then 7 else 6) (terms, 0)
    let lane0 : Nat → Nat → Nat := fun v k => if k = 0 then v else 0
    (ty.isVF = true → ToV (.vrsum ty vd a mk) s [a]
      { s.me.stat with fpstat := s.me.stat.fpstat ||| word sum.2 } vd 32 (fun _ => true) (lane0 (sum.1.headD 0))) ∧
    (ty.isVF = true ∨ ty.isInt = true → ∀ big : Bool,
      ToV (if big then .vrmax ty vd a mk else .vrmin ty vd a mk) s [a] s.me.stat vd w (fun _ => true)
        (lane0 (extreme ty big ((List.range (2048 / w)).map fun k => if on k then A k else extremeIdent ty big)))) ∧
    (ty.isInt = true → ToV (.vradd ty vd a mk) s [a] s.me.stat vd 64 (fun _ => true)
      (lane0 (ofI 64 (((List.range (2048 / w)).filter on).map fun k => toI w (A k)).sum)))

/-- VSORT writes the 32 pairs in ascending order of their signed keys, pairs of equal key in their old order; VMRG writes
the lower or the upper half of the merge, which is sorted and stable where both inputs are sorted; VMSPLIT counts the keys
at most each element (R120 to R123). That a head of VMSPLIT is read after the context's earlier fused accesses (State.after,
log 11), and that an error of its row is found at issue (HeadsReady, log 51), is the model's choice. -/
def Obligations.SortResults : Prop :=
  ∀ (s : State) (vd va vb : VReg) (a b : VSrc) (mk : MReg) (hi : Bool),
    let P := pairsOf (s.rv va) (s.rv (va + 1))
    let Q := pairsOf (s.rv vb) (s.rv (vb + 1))
    let le : Nat × Nat → Nat × Nat → Prop := fun x y => toI 64 x.1 ≤ toI 64 y.1
    let M := mergePairs 64 P Q
    (∃ t l, exec (.vsort vd va) s = .next t ∧ WritesPairs s t vd l ∧ l.Pairwise le ∧
      ∀ key, l.filter (fun x => x.1 == key) = P.filter fun x => x.1 == key) ∧
    (∃ t, exec (.vmrg hi vd va vb) s = .next t ∧ WritesPairs s t vd ((M.drop (if hi then 32 else 0)).take 32)) ∧
    (P.Pairwise le → Q.Pairwise le → M.Pairwise le ∧ M.length = 64 ∧
      ∀ key, M.filter (fun x => x.1 == key) = P.filter (fun x => x.1 == key) ++ Q.filter fun x => x.1 == key) ∧
    ToV (.vmsplit vd a b mk) s [a, b] s.me.stat vd 64 (maskOn 64 (s.rm mk)) (fun j =>
      (List.range 32).countP fun i => decide (toI 64 (elem 64 (s.src a) i) ≤ toI 64 (elem 64 (s.src b) j)))

/-- VCVTQ completes where its heads are ready, its stream is bound as a list and no acquire is awaited: an enabled element
whose scaled value lies in range takes its code, a NaN or a NaN scale the special result; the outliers in ascending order
are recorded in the list's tail row with index and value in FP32 and give 0, a row of 32 records passing to the storer and
the next row being the tail, or once the list is full saturate and set OUTOV and INX; every other byte of the scratchpads,
every bit of the destination outside the part and every other stream but for the heads consumed stands; EB advances by the
number of elements, and a random rounding advances EIDX as much (R78, R113, R193). VADAMW and VSGDM complete where their
heads and outputs are ready, the block of hyperparameters lies in the extent without error and no acquire is awaited: each
output is the row of the new elements in FP32, or in BF16 for w in a half; a skipped element keeps its bits; the heads pass,
an output whose row is whole advances, and every other stream stands; the flags of the others are ORed into SR_FPSTAT,
SR_OPTSTAT counts the skips and notes a v below zero, and a random rounding draws 64 (R124 to R127). That the reserved bytes
of the block are not looked at is the model's reading (log 50), and that the context's earlier accesses of a fused cluster
are performed first its choice (log 11). -/
def Obligations.QuantizeAndOptimise : Prop :=
  ∀ (s : State) (d sT : ETy) (rnd : Rnd) (vd : VReg) (a b : VSrc) (sl : SReg) (mk : MReg) (part : BitVec 4) (xh : XReg)
    (h g16 adam : Bool), NoAcquire s →
    let z := s.flush
    let n := 2048 / sT.width
    let on : Nat → Bool := maskOn sT.width (s.rm mk)
    let val : Nat → Nat := fun j => elem sT.width (s.src a) j
    let code : Nat → Option (Nat × Nat) := fun j => quantElem d rnd (drawHigh (s.me.draws j))
      (elem 8 (s.src b) (j / 32)) (sT.fmt.decode (val j))
    let x := s.me.stream sl
    let outl := (List.range n).filter fun j => on j && (code j).isNone
    let flags := (List.range n).foldl (fun f j => if on j then f ||| ((code j).getD (0, 0)).2 else f) 0
    let taken := outl.foldl (fun (a : Stream × (Nat → Byte) × List Nat) j =>
      let y := a.1
      let at_ := s.spadAddr s.myCore (256 * y.row) + 8 * y.recs
      let rec_ := toBytes 4 ((x.eb + j) % 2 ^ 32) ++ toBytes 4 (fmt32.rne (sT.fmt.decode (val j))).1
      if y.hasRecord then
        (if y.recs = 31 then { y.advance 1 with recs := 0 } else { y with recs := y.recs + 1 },
          fun p => if at_ ≤ p ∧ p < at_ + 8 ∧ y.recs < 32 then rec_.getD (p - at_) 0 else a.2.1 p, a.2.2 ++ [j])
      else a) (x, fun p => tget 0 p z.spad.bytes, [])
    let bf := decide (sT = .bf16)
    let srcs := optSrcs sl bf h g16 adam
    let outs := optOuts sl bf h adam
    let i : Instr := if adam then .vadamw sT rnd sl xh h g16 else .vsgdm sT rnd sl xh h g16
    let head : SReg → Row := fun q => tget 0 q.toNat s.iss.heads
    let hp := hyperOf (z.block64 (s.rx xh))
    let step : Nat → OptElem := fun k =>
      let w := optElem bf h (head sl) k
      let m := optElem false h (head (sl + 1)) k
      let g := optElem g16 h (head (if adam then sl + 3 else sl + 2)) k
      if adam then adamElem hp w m (optElem false h (head (sl + 2)) k) g else sgdElem hp w m g
    let narrow : Nat → Nat × Nat := fun k =>
      if (step k).skip then (elem 16 (head sl) (64 * (if h then 1 else 0) + k), 0)
      else (ETy.fmt .bf16).cvt rnd (drawHigh (s.me.draws k)) (fmt32.decode (step k).w)
    ((Instr.vcvtq d sT rnd vd a b sl mk part).wf = true → HeadsReady s [a, b] → x.bound = true → x.kind = 2 →
      ∃ t, exec (.vcvtq d sT rnd vd a b sl mk part) s = .next t ∧
        let el : Nat → Nat := fun j => elem d.width (t.me.vr vd) (part.toNat * n + j)
        (∀ q, q ≠ vd → t.me.vr q = z.me.vr q) ∧
        (∀ j, j < n → on j = false → el j = elem d.width (z.me.vr vd) (part.toNat * n + j)) ∧
        (∀ j c, j < n → on j = true → code j = some c → el j = c.1 % 2 ^ d.width) ∧
        (∀ p, p < 2048 → (p < part.toNat * n * d.width ∨ (part.toNat + 1) * n * d.width ≤ p) →
          (t.me.vr vd).getLsbD p = (z.me.vr vd).getLsbD p) ∧
        (∀ q, q ≠ sl → t.me.stream q = (z.consume [a, b]).me.stream q) ∧
        (∀ j ∈ outl, el j = if j ∈ taken.2.2 then 0 else d.fmt.signed (sT.fmt.neg (val j)) d.fmt.maxMag) ∧
        (∀ p, tget 0 p t.spad.bytes = taken.2.1 p) ∧
        t.me.stream sl = { taken.1 with eb := (x.eb + n) % 2 ^ 32, due := (t.me.stream sl).due } ∧
        t.me.stat.fpstat = s.me.stat.fpstat |||
          word (flags ||| if taken.2.2.length < outl.length then fOUTOV ||| fINX else 0) ∧
        t.me.stat.rndctr = (if rnd = .sr then advanceCtr s.me.stat.rndctr n else s.me.stat.rndctr) ∧
        t.me.regs.x = z.me.regs.x ∧ t.me.regs.p = s.me.regs.p ∧ t.me.regs.m = s.me.regs.m ∧ t.me.pc = s.me.pc ∧
        t.me.tr = s.me.tr ∧ t.dram = s.dram ∧ t.cores = s.cores) ∧
    (i.wf = true → HeadsReady s srcs →
      (∀ o ∈ outs, (s.me.stream o.1).bound = true ∧ (s.me.stream o.1).kind = 1 ∧
        (s.me.stream o.1).pending < (s.me.stream o.1).ns ∧ (o.2 = true → 0 < (s.me.stream o.1).left)) →
      (s.rx xh).toNat < s.extent s.myCore →
      (∀ l, l < 16 → tget false (s.spadAddr s.myCore ((s.rx xh).toNat / 256 * 256) / 16 + l) z.spad.err = false) →
      ∃ t, exec i s = .next t ∧ OnlyCtx z t s.iss.key ∧
        t.me = { z.me with streams := t.me.streams, stat := t.me.stat, outs := t.me.outs, acc := z.me.acc + 1 } ∧
        t.me.stat = { s.me.stat with
          fpstat := s.me.stat.fpstat ||| word ((List.range 64).foldl (fun f k => f ||| (step k).flags)
            (if bf then (List.range 64).foldl (fun f k => f ||| (narrow k).2) 0 else 0))
          optstat := optStat s.me.stat.optstat ((List.range 64).countP fun k => (step k).skip)
            ((List.range 64).any fun k => (step k).vneg)
          rndctr := if bf = true ∧ rnd = .sr then advanceCtr s.me.stat.rndctr 64 else s.me.stat.rndctr } ∧
        (∀ q, (∀ o ∈ outs, o.1 ≠ q) → t.me.stream q = (z.consume srcs).me.stream q) ∧
        (∀ o ∈ outs, t.me.stream o.1 =
          { (if o.2 then (z.me.stream o.1).advance 1 else z.me.stream o.1) with due := (t.me.stream o.1).due }) ∧
        ∃ l : List (Row256 × Row), l.length = outs.length ∧
          t.me.outs = s.me.outs ++ (outs.zip l).map (fun e =>
            let y := s.me.stream e.1.1
            let pl := rowPlace (s.isFused s.myCore) s.myCore y.row
            { num := z.me.acc, sn := e.1.1, core := pl.1, row := pl.2
              mask := e.2.1, data := e.2.2 }) ∧
          (∀ k, k < 64 → if bf
            then elem 16 (l.getD 0 (0, 0)).2 (64 * (if h then 1 else 0) + k) = (narrow k).1 % 2 ^ 16
            else elem 32 (l.getD 0 (0, 0)).2 k = (step k).w % 2 ^ 32) ∧
          (∀ p, p < 256 → (l.getD 0 (0, 0)).1.getLsbD p =
            (!bf || decide (128 * (if h then 1 else 0) ≤ p ∧ p < 128 * (if h then 1 else 0) + 128))) ∧
          ∀ q, 0 < q → q < outs.length → (l.getD q (0, 0)).1 = fullMask ∧ ∀ k, k < 64 →
            elem 32 (l.getD q (0, 0)).2 k = (if q = 1 then (step k).m else (step k).v) % 2 ^ 32)

/-! ## Scratchpad rows, atomics and messages (spec/08) -/

/-- LDROW, STROW and AMO complete where the row lies in the extent, a row that is read has no uncorrectable error, the head
that STROW reads is ready, and no acquire is awaited. On a row of the own core they move the bytes of the row, byte i of the
register at byte i of the row; AMO writes the enabled elements and returns the old ones unless NR; every other byte of every
memory reads as before (R102, R173, R180 to R182). On a row of another core of a fused cluster they issue and take effect
later, in issue order, in one action each (R176, R182), a STROW of a stream head among them, whose head passes as it issues;
that the context's earlier such accesses are performed by the time an access to an own row is, is the model's choice (log
11). A row access outside the extent, with no acquire awaited, takes the scratchpad range trap with SR_EADDR at the address,
and stores nothing, a STROW of a head that can be read among them; while one is awaited the three wait at their bundle and
change nothing (R46, R173, R186, R339). -/
def Obligations.RowAccess : Prop :=
  (∀ (s : State) (vd va vc : VReg) (vs : VSrc) (base : XReg) (off : BitVec 32) (mk : MReg) (op : AmoOp) (w64 nr : Bool),
    let ea := s.rx base + off.signExtend 64
    let z := s.flush
    let row := s.spadAddr s.myCore (ea.toNat / 256 * 256)
    let arow := s.spadAddr s.myCore ((s.rx base).toNat / 256 * 256)
    let pl := rowPlace (s.isFused s.myCore) s.myCore (ea.toNat / 256)
    let apl := rowPlace (s.isFused s.myCore) s.myCore ((s.rx base).toNat / 256)
    let clean : Nat → Prop := fun r => ∀ l, l < 16 → tget false (r / 16 + l) s.spad.err = false
    let w := amoWidth w64
    let old : Nat → Nat := fun k => ofBytes ((List.range (w / 8)).map fun i => tget 0 (arow + w / 8 * k + i) z.spad.bytes)
    let on : Nat → Bool := maskOn w (s.rm mk)
    let lanes := laneMask 4 (s.rm mk)
    let later : Instr → Nat × Nat → FusedKind → List VReg → Prop := fun i pl kind r => ∃ t, exec i s = .next t ∧
      OnlyCtx s t s.iss.key ∧ t.me = { s.me with acc := s.me.acc + 1, vwait := s.me.vwait ++ r, fused := s.me.fused ++
        [{ num := s.me.acc, core := pl.1, row := pl.2, kind := kind }] }
    NoAcquire s →
    (ea.toNat < s.extent s.myCore → clean row → pl.1 = s.myCore.toNat →
      ∃ t, exec (.ldrow vd base off) s = .next t ∧ WritesV z t [] z.me.stat vd 8 (fun _ => true)
        (fun k => (tget 0 (row + k) z.spad.bytes).toNat)) ∧
    (ea.toNat < s.extent s.myCore → clean row → pl.1 ≠ s.myCore.toNat →
      later (.ldrow vd base off) pl (.load vd) [vd]) ∧
    (ea.toNat < s.extent s.myCore → HeadsReady s [vs] → pl.1 = s.myCore.toNat →
      ∃ t, exec (.strow vs base off mk) s = .next t ∧ OnlySpad (z.consume [vs]) t ∧
        ∀ j, tget 0 j t.spad.bytes =
          if row ≤ j ∧ j < row + 256 ∧ (s.rm mk).getLsbD ((j - row) / 4) = true then
            BitVec.ofNat 8 (elem 8 (s.src vs) (j - row)) else tget 0 j z.spad.bytes) ∧
    (ea.toNat < s.extent s.myCore → HeadsReady s [vs] → pl.1 ≠ s.myCore.toNat →
      let u := (s.after [vs]).consume [vs]
      ∃ t, exec (.strow vs base off mk) s = .next t ∧ OnlyCtx u t s.iss.key ∧
        t.me = { u.me with acc := u.me.acc + 1, fused := u.me.fused ++
          [{ num := u.me.acc, core := pl.1, row := pl.2, kind := .store lanes (s.src vs) }] }) ∧
    ((s.rx base).toNat < s.extent s.myCore → clean arow → apl.1 = s.myCore.toNat →
      ∃ t, exec (.amo op w64 vd base va vc mk nr) s = .next t ∧
        (∀ j, (j < arow ∨ arow + 256 ≤ j) → tget 0 j t.spad.bytes = tget 0 j z.spad.bytes) ∧
        (∀ k, k < 2048 / w → ofBytes ((List.range (w / 8)).map fun i => tget 0 (arow + w / 8 * k + i) t.spad.bytes) =
          if on k then amoNew op w (old k) (elem w (s.rv va) k) (elem w (s.rv vc) k) % 2 ^ w else old k) ∧
        t.dram = s.dram ∧ t.cores = s.cores ∧ (∀ q, q ≠ vd → t.me.vr q = z.me.vr q) ∧
        (nr = true → t.me.vr vd = z.me.vr vd) ∧
        (nr = false → ∀ k, k < 2048 / w → elem w (t.me.vr vd) k = if on k then old k else elem w (z.me.vr vd) k) ∧
        t.me.regs.x = z.me.regs.x ∧ t.me.regs.p = s.me.regs.p ∧ t.me.regs.m = s.me.regs.m ∧ t.me.stat = s.me.stat ∧
        t.me.tr = s.me.tr ∧ t.me.pc = s.me.pc ∧ t.me.sys = s.me.sys) ∧
    ((s.rx base).toNat < s.extent s.myCore → clean arow → apl.1 ≠ s.myCore.toNat →
      later (.amo op w64 vd base va vc mk nr) apl (.atomic op w64 vd (s.rv va) (s.rv vc) (s.rm mk) nr)
        (if nr then [] else [vd]))) ∧
  (∀ (s : State) (k : CtxKey) (o : FusedOp) (rest : List FusedOp) (vd : VReg) (op : AmoOp) (w64 nr : Bool) (va vc : Row)
    (mask : Word), s.powered = true → (s.ctx k).fused = o :: rest →
    let w := amoWidth w64
    let old : Nat → Nat := elem w (s.localRow o.core o.row)
    (o.kind = .load vd → vd ∈ (s.ctx k).vwait → ∃ t, s.minor (.fused k) = .next t ∧ t.spad = s.spad ∧
      (t.ctx k).fused = rest ∧ (t.ctx k).vwait = (s.ctx k).vwait.erase vd ∧
      ∀ q, (t.ctx k).vr q = if q = vd then s.localRow o.core o.row else (s.ctx k).vr q) ∧
    (o.kind = .atomic op w64 vd va vc mask nr → (nr = true ∨ vd ∈ (s.ctx k).vwait) →
      ∃ t, s.minor (.fused k) = .next t ∧ (t.ctx k).fused = rest ∧
        (∀ j, (j < spadKey o.core o.row ∨ spadKey o.core o.row + 256 ≤ j) →
          tget 0 j t.spad.bytes = tget 0 j s.spad.bytes) ∧
        (∀ e, e < 2048 / w → elem w (t.localRow o.core o.row) e =
          if maskOn w mask e then amoNew op w (old e) (elem w va e) (elem w vc e) % 2 ^ w else old e) ∧
        (∀ q, q ≠ vd ∨ nr = true → (t.ctx k).vr q = (s.ctx k).vr q) ∧
        (nr = false → ∀ e, e < 2048 / w →
          elem w ((t.ctx k).vr vd) e = if maskOn w mask e then old e else elem w ((s.ctx k).vr vd) e))) ∧
  (∀ (s : State) (vd va vc : VReg) (vs : VSrc) (base : XReg) (off : BitVec 32) (mk : MReg) (op : AmoOp) (w64 nr : Bool),
    let ea := s.rx base + off.signExtend 64
    let readable := ∀ sn ∈ headsOf [vs], (s.me.stream sn).bound = true ∧ (s.me.stream sn).kind = 0 ∧
      (0 < (s.me.stream sn).avail ∨ 0 < (s.me.stream sn).left)
    (s.extent s.myCore ≤ ea.toNat → NoAcquire s → TrapsAtIssue (.ldrow vd base off) s 9 ea 0 ∧
      (readable → TrapsAtIssue (.strow vs base off mk) s 9 ea 0)) ∧
    (s.extent s.myCore ≤ (s.rx base).toNat → NoAcquire s →
      TrapsAtIssue (.amo op w64 vd base va vc mk nr) s 9 (s.rx base) 0) ∧
    (¬ NoAcquire s → exec (.ldrow vd base off) s = .next s ∧ exec (.strow vs base off mk) s = .next s ∧
      exec (.amo op w64 vd base va vc mk nr) s = .next s))

/-- LDROWR, STROWR and AMOR complete where the row lies in a scratchpad, the destination's cluster is ready, fewer than 64
messages are in flight and no acquire is awaited: one message is put last, and a register that takes a reply waits for it;
outside the scratchpad they take the range trap, and towards a cluster that is not ready the protection trap, where no
acquire is awaited (R42, R183, R186). That one STROWR is always one message of its own, never merged with another, is the
model's choice (log 52): R186 lets the store buffer merge. That the head which STROWR reads is read after the context's
earlier fused accesses (State.after, log 11), and that an error of its row is found at issue (HeadsReady, log 51), is the
model's choice too. -/
def Obligations.RemoteRowsSend : Prop :=
  ∀ (s : State) (vd va vc vr : VReg) (vs : VSrc) (xc xa : XReg) (mk : MReg) (op : AmoOp) (w64 nr acq rel : Bool),
    let dst : CoreNo := BitVec.ofNat 12 (s.rx xc).toNat
    let ea := (s.rx xa).toNat
    let sends : State → State → MsgKind → Bool → Option VReg → Prop := fun u t kind q r =>
      t = { u with ctxs := t.ctxs, cores := t.cores } ∧ (∀ j, j ≠ u.iss.key → t.ctx j = u.ctx j) ∧
      (∀ j, j ≠ u.myCore → t.core j = u.core j) ∧
      t.core u.myCore = { u.core u.myCore with msgs := (u.core u.myCore).msgs ++
        [{ num := u.me.acc, key := u.iss.key, dst := dst, kind := kind, acq := q, reply := none }] } ∧
      t.me = { u.me with vwait := u.me.vwait ++ r.toList, acc := u.me.acc + 1 }
    let all : Nat → Word → Word → Prop := fun code ea info =>
      TrapsAtIssue (.ldrowr vd xc xa acq) s code ea info ∧ TrapsAtIssue (.strowr (.v vr) xc xa mk rel) s code ea info ∧
      TrapsAtIssue (.amor op w64 vd xc xa va vc mk nr acq) s code ea info
    (ea < 0x60000 → tget false (dst.toNat / 16) s.clReady = true → (s.core s.myCore).msgs.length < 64 → NoAcquire s →
      (∃ t, exec (.ldrowr vd xc xa acq) s = .next t ∧ sends s t (.load vd ea) acq (some vd)) ∧
      (HeadsReady s [vs] → ∃ t, exec (.strowr vs xc xa mk rel) s = .next t ∧
        sends ((s.after [vs]).consume [vs]) t (.store ea (s.rm mk) (s.src vs) rel) false none) ∧
      (∃ t, exec (.amor op w64 vd xc xa va vc mk nr acq) s = .next t ∧
        sends s t (.atomic op w64 vd ea (s.rv va) (s.rv vc) (s.rm mk) nr) acq (if nr then none else some vd))) ∧
    (0x60000 ≤ ea → NoAcquire s → all 9 (s.rx xa) 0) ∧
    (ea < 0x60000 → tget false (dst.toNat / 16) s.clReady = false → NoAcquire s →
      all 8 (s.rx xa) (BitVec.ofNat 64 dst.toNat))

/-- The first message of a pair that has not taken effect takes it in one action: a load gives the row that the reply will
carry, a store writes the bytes of its lanes, an atomic writes the enabled elements of the row and its reply carries the old
ones, a remote SEV sets the masked latches, on the clk of an evaluation of such a context before that only; a release waits
for the earlier accesses and messages of its context. A reply then leaves, and a load's or an atomic's writes its register,
which no longer waits; FENCE completes once no fused access, no optimiser output to another core's row and no message within
the scope of its context is left, and until then changes nothing (R99, R100, R176, R182 to R185, R187). That a release waits
for its context's earlier fused loads too is the model's choice (log 11). -/
def Obligations.RemoteMessagesTakeEffect : Prop :=
  ∀ (s : State) (src dst : CoreNo) (i : Nat) (m : Msg) (sc : Scope) (op : AmoOp) (w64 nr : Bool) (vd : VReg) (ea : Nat)
    (va vc : Row) (mask : Word),
    let w := amoWidth w64
    let old : Nat → Nat := elem w (s.localRow dst.toNat (ea / 256))
    let answered : State → Option Row → Prop := fun t r =>
      t.core src = { s.core src with msgs := (s.core src).msgs.modify i fun m => { m with reply := some r } } ∧
      ∀ j, j ≠ src → t.core j = s.core j
    (s.nextMsg src dst = some (i, m) →
      (m.kind = .load vd ea → s.rowBad dst.toNat (ea / 256) 0 256 = false →
        ∃ t, exec (.remoteMessageArrival src dst) s = .next t ∧ t = { s with cores := t.cores } ∧
          answered t (some (s.localRow dst.toNat (ea / 256)))) ∧
      (∀ data rel, m.kind = .store ea mask data rel →
        (rel = true → (∀ e ∈ (s.core src).msgs.take i, e.key = m.key →
          (∃ a b c d, e.kind = .store a b c d ∧ e.reply ≠ none) ∨ ∃ a, e.kind = .sev a) ∧
          (∀ o ∈ (s.ctx m.key).fused, m.num ≤ o.num) ∧ ∀ o ∈ (s.ctx m.key).outs, m.num ≤ o.num) →
        ∃ t, exec (.remoteMessageArrival src dst) s = .next t ∧
          t = { s with cores := t.cores, spad := t.spad, ctxs := t.ctxs } ∧ answered t none ∧
          ∀ j, tget 0 j t.spad.bytes =
            let r := spadKey dst.toNat (ea / 256)
            if r ≤ j ∧ j < r + 256 ∧ mask.getLsbD ((j - r) / 4) = true then BitVec.ofNat 8 (elem 8 data (j - r))
            else tget 0 j s.spad.bytes) ∧
      (m.kind = .atomic op w64 vd ea va vc mask nr → s.rowBad dst.toNat (ea / 256) 0 256 = false →
        ∃ t, exec (.remoteMessageArrival src dst) s = .next t ∧
          t = { s with cores := t.cores, spad := t.spad, ctxs := t.ctxs } ∧
          answered t (some (s.localRow dst.toNat (ea / 256))) ∧
          (∀ j, (j < spadKey dst.toNat (ea / 256) ∨ spadKey dst.toNat (ea / 256) + 256 ≤ j) →
            tget 0 j t.spad.bytes = tget 0 j s.spad.bytes) ∧
          ∀ e, e < 2048 / w → elem w (t.localRow dst.toNat (ea / 256)) e =
            if maskOn w mask e then amoNew op w (old e) (elem w va e) (elem w vc e) % 2 ^ w else old e) ∧
      (∀ mask (c : BitVec 2), m.kind = .sev mask → mask.getLsbD c.toNat = true →
        (s.core dst).evaled = some (s.clk, c) → exec (.remoteSevArrival src dst) s = .refused .notEnabled) ∧
      (∀ mask, m.kind = .sev mask →
        (∀ c : BitVec 2, mask.getLsbD c.toNat = true → (s.core dst).evaled ≠ some (s.clk, c)) →
        ∃ t, exec (.remoteSevArrival src dst) s = .next t ∧
        t = { s with cores := t.cores, ctxs := t.ctxs } ∧ answered t none ∧
        ∀ k, t.ctx k = { s.ctx k with
          evt := (s.ctx k).evt || (decide (keyCore k = dst) && mask.getLsbD (keyCtx k).toNat) })) ∧
    (∀ r, (s.core src).msgs[i]? = some m → m.reply = some r →
      ∃ t, exec (.remoteReplyArrival src i) s = .next t ∧ t = { s with cores := t.cores, ctxs := t.ctxs } ∧
        t.core src = { s.core src with msgs := (s.core src).msgs.eraseIdx i } ∧ (∀ j, j ≠ src → t.core j = s.core j) ∧
        (∀ j, j ≠ m.key → t.ctx j = s.ctx j) ∧
        (∀ v, m.kind = .load vd ea → r = some v → vd ∈ (s.ctx m.key).vwait →
          (t.ctx m.key).vr vd = v ∧ (t.ctx m.key).vwait = (s.ctx m.key).vwait.erase vd) ∧
        ∀ v, m.kind = .atomic op w64 vd ea va vc mask false → r = some v → vd ∈ (s.ctx m.key).vwait →
          (t.ctx m.key).vwait = (s.ctx m.key).vwait.erase vd ∧ ∀ e, e < 2048 / w → elem w ((t.ctx m.key).vr vd) e =
            if maskOn w mask e then elem w v e else elem w ((s.ctx m.key).vr vd) e) ∧
    exec (.fence sc) s = .next s ∧
    ((semFence sc).stall s = none ↔ s.me.fused = [] ∧ (∀ o ∈ s.me.outs, o.core = s.myCore.toNat) ∧
      ∀ x ∈ (s.core s.myCore).msgs, x.key = s.iss.key → inScope sc s.myCore x.dst = false)

/-! ## Streams (spec/08) -/

/-- SBIND completes where its descriptor lies in the extent without error and holds no reserved value, its buffer lies in
the extent, no acquire is awaited and the old binding owes no drain: the stream register takes the new binding. SUNBIND
completes where no drain is owed, and unbinds; outputs that an optimiser step still owes are written all the same. SADV
completes where as many slots as it names are filled or free and left, and moves the head or tail, and with a count of zero
on a bound stream it changes nothing; SWAIT changes nothing; SSTAT reads the binding (R126, R188 to R196). A reserved value
of a descriptor takes the operand-format trap. Advancing an unbound stream, an outlier list, or past the buffer or the
pattern, waiting on an unbound stream or a list, and reading the head of either with no acquire awaited take the stream
protocol trap (R103, R186, R193, R194). That SBIND reads its descriptor after the context's earlier fused accesses (log 11),
that SSTAT reads as AVAIL of an outlier list the records that still fit (log 34), and that these instructions act on the
stream that the V slots of their bundle leave (log 58) are the model's choice. -/
def Obligations.StreamInstructions : Prop :=
  (∀ (s : State) (sn : SReg) (base rs xd : XReg) (off imm : BitVec 32) (sel : BitVec 2),
    let ea := s.rx base + off.signExtend 64
    let z := s.flush
    let l := z.block64At s.myCore ea
    let x := s.me.stream sn
    let n := (s.rx rs + BitVec.ofNat 64 imm.toNat).toNat
    let binds : State → State → Stream → Prop := fun z t y => OnlyCtx z t s.iss.key ∧
      t.me = { z.me with streams := t.me.streams, held := t.me.held, pend := t.me.pend, releases := t.me.releases } ∧
      ∀ q, t.me.stream q = if q = sn then y else z.me.stream q
    let good := x.bound = true ∧ x.kind ≠ 2 ∧ n ≤ x.ns
    (z.blockFault ea = none → descOk l = true →
      ((descStream l).brow + (descStream l).ns) * 256 ≤ s.extent s.myCore → NoAcquire s → x.owes = false →
      ∃ t, exec (.sbind sn base off) s = .next t ∧ binds z t (descStream l)) ∧
    (z.blockFault ea = none → descOk l = false → NoAcquire s → TrapsAtIssue (.sbind sn base off) s 10 0 0) ∧
    (z.blockFault ea = none → descOk l = true → s.extent s.myCore < ((descStream l).brow + (descStream l).ns) * 256 →
      NoAcquire s →
      TrapsAtIssue (.sbind sn base off) s 9 (BitVec.ofNat 64 (max ((descStream l).brow * 256) (s.extent s.myCore))) 0) ∧
    (x.owes = false → ∃ t, exec (.sunbind sn) s = .next t ∧ binds s t {}) ∧
    (good → 0 < n → n ≤ x.left → (x.kind = 0 → n ≤ x.avail) → (x.kind ≠ 0 → n ≤ x.ns - x.pending) →
      ∃ t, exec (.sadv sn rs imm) s = .next t ∧ OnlyCtx s t s.iss.key ∧
        t.me = { s.me with streams := t.me.streams } ∧
        (∀ q, q ≠ sn → t.me.stream q = s.me.stream q) ∧
        (t.me.stream sn).pos = x.pos + n ∧ (t.me.stream sn).tail = (x.tail + n) % x.ns) ∧
    (good → n = 0 → exec (.sadv sn rs imm) s = .next s) ∧
    (good → (x.kind = 0 → n = 0 ∨ min n x.left ≤ x.avail) → (x.kind ≠ 0 → n ≤ x.ns - x.pending) →
      exec (.swait sn rs imm) s = .next s) ∧
    ToX (.sstat xd sn sel) s xd (x.stat sel)) ∧
  (∀ (s : State) (sn : SReg) (rs : XReg) (imm : BitVec 32) (ty : ETy) (vd : VReg) (b : VReg) (mk : MReg) (p : Bool),
    let x := s.me.stream sn
    let n := (s.rx rs + BitVec.ofNat 64 imm.toNat).toNat
    let list := x.bound = true ∧ x.kind = 2
    (x.bound = false ∨ list ∨ x.ns < n ∨ x.left < n → TrapsAtIssue (.sadv sn rs imm) s 12 0 0) ∧
    (x.bound = false ∨ list ∨ x.ns < n → TrapsAtIssue (.swait sn rs imm) s 12 0 0) ∧
    (x.bound = false ∨ x.kind ≠ 0 → NoAcquire s → TrapsAtIssue (.vfadd ty vd (.head sn p) (.v b) mk) s 12 0 0))

/-- The loader fills a slot of a read stream in one action, with the bytes that stand committed at its address and zeros
above them; the storer reads, one row a clk and in the order in which slots became eligible, the next advanced slot's row,
whose bytes become pending writes of the context; an optimiser output goes to its row, the outputs of different steps of a
context in issue order (R126, R191, R192, R220). -/
def Obligations.StreamTransfers : Prop :=
  ∀ (s : State) (k : CtxKey) (sn : SReg) (slot since : Nat),
    let x := (s.ctx k).stream sn
    let u := coreDie (keyCore k)
    (∀ bs nl, x.fillable slot = true → s.readBytes u (s.nowBlk k) (x.addr slot) x.len = .ok (bs, nl) →
      ∃ t, exec (.streamFill k sn slot) s = .next t ∧ slot ∈ ((t.ctx k).stream sn).filled ∧
        t.dram = s.dram ∧ t.cores = s.cores ∧
        (let r := s.spadAddr (keyCore k) (256 * x.slotRow slot)
         ∀ j, tget 0 j t.spad.bytes =
           if r ≤ j ∧ j < r + 256 then bs.getD (j - r) 0 else tget 0 j s.spad.bytes)) ∧
    (let va := x.addr x.drained
     let len := x.drainLen x.drained
     let pl := rowPlace (s.isFused (keyCore k)) (keyCore k) (x.slotRow x.drained)
     let v := (s.mapCore (keyCore k) fun co => { co with drainClk := some s.clk }).cacheN u va len
     let bs := rowBytes (s.localRow pl.1 pl.2) 0 len
     s.drainClkOf k x = some since → s.drainTurn (keyCore k) since = true → s.rowBad pl.1 pl.2 0 len = false →
      s.writeFault u va len = none → (∀ p ∈ pagesOf va len, s.pageMig u p = false) → s.migHeld = [] →
      ∃ t, exec (.streamDrain k sn) s = .next t ∧ ((t.ctx k).stream sn).drained = x.drained + 1 ∧
        (t.ctx k).staged = ((v.stageBytes u k va bs ((s.ctx k).drainEpoch sn x.drained)).ctx k).staged ∧
        (t.ctx k).regs = (s.ctx k).regs ∧ (∀ j, j ≠ k → t.ctx j = s.ctx j) ∧
        t.dram = s.dram ∧ t.spad = s.spad ∧ t.cores = v.cores) ∧
    (∀ o, (s.ctx k).outs.find? (fun o => o.sn == sn) = some o →
      (∀ p ∈ (s.ctx k).outs.takeWhile (fun p => p.sn != sn), p.num = o.num) →
      ∃ t, exec (.optimiserOutputWrite k sn) s = .next t ∧ (t.ctx k).outs = (s.ctx k).outs.erase o ∧
        (t.ctx k).regs = (s.ctx k).regs ∧ t.dram = s.dram ∧ t.cores = s.cores ∧ ∀ j, tget 0 j t.spad.bytes =
          let r := spadKey o.core o.row
          if r ≤ j ∧ j < r + 256 ∧ o.mask.getLsbD (j - r) = true then BitVec.ofNat 8 (elem 8 o.data (j - r))
          else tget 0 j s.spad.bytes)

/-! ## The matrix array (spec/06, spec/07) -/

/-- The M-slot instructions complete where their checks at issue find no fault and the queue of their stream has room: one
operation, with its descriptors and operands as captured, is put last into the stream; MDRAIN with stochastic rounding also
advances EIDX, and MDRAIN.V and MSTAT make their register wait (R131, R135, R138 to R152, R162 to R170). That the head which
MMULG reads is read after the context's earlier fused accesses (State.after, log 11), and that an error of its row is found
at issue (HeadsReady, log 51), is the model's choice. MDRAIN and MDRAIN.V complete where their checks at issue find no fault
and the queue has room: the operation is put last with the draw state of the context, which a stochastic rounding advances
(R71, R135, R146, R147; that SR_RNDSEED is read at issue, and the order of the faults of MDRAIN.q, are the model's choice,
log 54). -/
def Obligations.MatrixIssue : Prop :=
  (∀ (s : State) (st at_ sel : BitVec 2) (set : BitVec 4) (d1 d2 : BitVec 3) (sp rev acc clr : Bool) (xs : XReg)
    (row0 : BitVec 7) (vi : VSrc) (src : GSrc),
    let da := s.desc d1
    let dg := s.desc d2
    let room := ((s.arr s.myCore).queue st).countP (fun o => o.started.isNone) < 8
    let puts : Instr → MatOp → Prop := fun i o => room → ∃ t, exec i s = .next t ∧ Enqueues s t st o
    let op : Instr → MatOp := fun i => { id := 0, key := s.iss.key, instr := i }
    let wide := 128 < row0.toNat + dVecs da
    (s.descFault da (fun t => isWeight t && !(sp && t == .lq2)) 32 32 = none →
      (sp = true → s.rowsFault s.myCore ((s.rx xs).toNat / 256) 1 = none) →
      puts (.mloadw st set d1 sp xs) { op (.mloadw st set d1 sp xs) with da := da, xs := s.rx xs }) ∧
    puts (.mswap st) (op (.mswap st)) ∧
    (¬ wide → s.descFault da isAct 64 128 = none →
      puts (.mmul st at_ set d1 rev acc row0) { op (.mmul st at_ set d1 rev acc row0) with da := da }) ∧
    (let u := s.after [vi]
     State.gatherDesc (u.desc d1) row0.toNat = none → u.gatherFault (u.desc d1) (u.src vi) = none →
      HeadsReady s [vi] → room →
      ∃ t, exec (.mmulg st at_ set d1 rev acc row0 vi) s = .next t ∧ Enqueues (u.consume [vi]) t st
        { op (.mmulg st at_ set d1 rev acc row0 vi) with da := u.desc d1, vi := u.src vi }) ∧
    puts (.mzero st at_) (op (.mzero st at_)) ∧
    (s.rowsFault s.myCore ((s.rx xs).toNat / 256) 4 = none →
      puts (.mcbook st xs) { op (.mcbook st xs) with xs := s.rx xs }) ∧
    (s.rowsFault s.myCore ((s.rx xs).toNat / 256) 1 = none →
      puts (.mknot st xs) { op (.mknot st xs) with xs := s.rx xs }) ∧
    (s.rowsFault s.myCore ((s.rx xs).toNat / 256) 128 = none →
      puts (.mknotC st xs) { op (.mknotC st xs) with xs := s.rx xs }) ∧
    (¬ wide → s.descFault da isSplineIn 32 128 = none →
      puts (.mspl st at_ d1 acc row0) { op (.mspl st at_ d1 acc row0) with da := da }) ∧
    (¬ wide → s.pairFault da dg = none →
      puts (.msplb st at_ d2 d1 acc row0) { op (.msplb st at_ d2 d1 acc row0) with da := da, dg := dg }) ∧
    (s.pairFault da dg = none → puts (.msplg st d2 d1) { op (.msplg st d2 d1) with da := da, dg := dg }) ∧
    puts (.mrefine st) (op (.mrefine st)) ∧
    (s.rowsFault s.myCore ((s.rx xs).toNat / 256) (gsrcRows src) = none →
      puts (.mgdrain st src xs) { op (.mgdrain st src xs) with xs := s.rx xs }) ∧
    puts (.mgzero st) (op (.mgzero st)) ∧
    (room → ∃ t, exec (.mstat st xs sel clr) s = .next t ∧
      (t.arr s.myCore).queue st = (s.arr s.myCore).queue st ++
        [{ op (.mstat st xs sel clr) with id := (s.arr s.myCore).issued }] ∧
      t.me = { s.me with xwait := s.me.xwait ++ if xs = 0 then [] else [xs] } ∧
      t.dram = s.dram ∧ t.spad = s.spad)) ∧
  (∀ (s : State) (st at_ : BitVec 2) (d : BitVec 3) (row0 : BitVec 7) (rnd : Rnd) (clr q : Bool) (sl : SReg) (vd : VReg)
    (ty : ETy),
    let room := ((s.arr s.myCore).queue st).countP (fun o => o.started.isNone) < 8
    let drains : Instr → BitVec 128 → Nat → List VReg → Prop := fun i da n r => room → ∃ t, exec i s = .next t ∧
      (t.arr s.myCore).queue st = (s.arr s.myCore).queue st ++
        [{ id := (s.arr s.myCore).issued, key := s.iss.key, instr := i, da := da, seed := s.me.stat.rndseed,
           ctr := s.me.stat.rndctr }] ∧
      t.me = { s.me with
        stat := { s.me.stat with rndctr := if rnd = .sr then advanceCtr s.me.stat.rndctr n else s.me.stat.rndctr }
        vwait := s.me.vwait ++ r } ∧
      t.dram = s.dram ∧ t.spad = s.spad
    (s.drainFault (s.desc d) row0.toNat q sl = none →
      drains (.mdrain st at_ d row0 rnd clr q sl) (s.desc d) (32 * dVecs (s.desc d)) []) ∧
    (ty.isFloat = true → drains (.mdrainV st at_ vd row0 rnd ty clr) 0 32 [vd]))

/-- MDSET writes its descriptor register from two scalar registers and nothing else; MWAIT completes with no effect where
its stream is empty; MFENCE puts one entry into each stream (R149 to R151). MMUL, MSPL and MLOADW whose descriptor fails a
format check of R135, or whose tile rows pass row 127, take the operand-format trap and enqueue nothing; where the format
passes, the first row outside the extent gives the scratchpad range trap with its address (R46, R135, R144). That a bad
descriptor is taken before a row outside the extent, and that the first row in index order gives the address, is the model's
choice (log 61). -/
def Obligations.MatrixControl : Prop :=
  ∀ (s : State) (st at_ : BitVec 2) (set : BitVec 4) (dn : BitVec 3) (lo hi : XReg) (rev acc : Bool) (row0 : BitVec 7),
    (∃ t, exec (.mdset dn lo hi) s = .next t ∧ OnlyCtx s t s.iss.key ∧ t.me = { s.me with d := t.me.d } ∧
      ∀ q, t.desc q = if q = dn then BitVec.ofNat 128 ((s.rx hi).toNat * 2 ^ 64 + (s.rx lo).toNat) else s.desc q) ∧
    ((s.arr s.myCore).queue st = [] → exec (.mwait st) s = .next s) ∧
    ((∀ q, ((s.arr s.myCore).queue q).countP (fun o => o.started.isNone) < 8) →
      ∃ t, exec .mfence s = .next t ∧ OnlyCore s t s.myCore ∧ ∀ q, (t.arr s.myCore).queue q =
        (s.arr s.myCore).queue q ++ [{ id := (s.arr s.myCore).issued, key := s.iss.key, instr := .mfence }]) ∧
    (128 < row0.toNat + dVecs (s.desc dn) → TrapsAtIssue (.mmul st at_ set dn rev acc row0) s 10 0 0) ∧
    (let f : Nat → Nat → Nat := fun lo n => bits (s.desc dn).toNat lo n
     let bad : (ETy → Bool) → Nat → Nat → Prop := fun ok cmax vmax =>
       f 43 1 ≠ 0 ∨ f 57 7 ≠ 0 ∨ f 81 15 ≠ 0 ∨ f 16 4 ≠ 0 ∨ f 44 7 = 0 ∨ cmax < f 44 7 ∨ vmax < f 36 7 + 1 ∨
       ∀ ty, ETy.ofCode? (f 51 4) = some ty → ok ty = false ∨
         2048 < 8 * f 16 8 + (if f 55 1 = 1 then f 36 7 + 1 else f 44 7) * ty.width ∨ (f 55 1 = 1 ∧ ty.width = 6) ∨
         (f 80 1 = 1 ∧ (ty = .f32 ∨ ty = .bf16 ∨ ty = .f16 ∨ ty = .i8))
     let out : Option Nat := (descRows (s.desc dn) (dElems (s.desc dn))).find? fun r => decide (s.extent s.myCore ≤ 256 * r)
     let wide := 128 < row0.toNat + f 36 7 + 1
     let traps : Instr → (ETy → Bool) → Nat → Nat → Prop := fun i ok cmax vmax =>
       (bad ok cmax vmax → TrapsAtIssue i s 10 0 0) ∧
       ∀ r, ¬ bad ok cmax vmax → out = some r → TrapsAtIssue i s 9 (BitVec.ofNat 64 (256 * r)) 0
     (¬ wide → traps (.mmul st at_ set dn rev acc row0) isAct 64 128) ∧
     (wide → TrapsAtIssue (.mspl st at_ dn acc row0) s 10 0 0) ∧
     (¬ wide → traps (.mspl st at_ dn acc row0) isSplineIn 32 128) ∧
     traps (.mloadw st set dn rev lo) (fun ty => isWeight ty && !(rev && ty == .lq2)) 32 32)

/-- The head of a stream starts when nothing it touches is in use and its checks pass, and fixes the active plane; where a
check fails it is held, and its context gets the fault; a started operation completes as a whole, which is the model's
choice (log 23), and leaves its queue: MSWAP exchanges the planes, MZERO and MGZERO clear, MLOADW and MCBOOK load what the
rows hold, MMUL and MMULG write their tile rows with the rounded sums of R75 and R76, MDRAIN writes converted rows and
MDRAIN.v a register, MSTAT answers, MKNOT and MKNOT.c load the grid and the coefficients, MSPL and MSPLB accumulate, MSPLG
adds to the gradients, MREFINE halves the intervals, MGDRAIN writes the array's state to rows; each ORs its flags into
SR_FPSTAT (R69, R131, R138 to R148, R152, R161, R164 to R170). That the derived knots of MKNOT and MREFINE raise no flags,
and that MDRAIN draws with the seed of its issue and appends to the outlier list that is bound when it completes (log 54),
and that a failed check of format comes before one of the plane's mode (log 61), are the model's choice. -/
def Obligations.MatrixOperations : Prop :=
  ∀ (s : State) (n : CoreNo) (st : BitVec 2) (o : MatOp) (r : List MatOp), (s.arr n).queue st = o :: r →
    let V := dVecs o.da
    let row := o.xs.toNat / 256
    let flags : State → Nat → Prop := fun t f =>
      (t.ctx o.key).stat = { (s.ctx o.key).stat with fpstat := (s.ctx o.key).stat.fpstat ||| BitVec.ofNat 64 f }
    let orAll : Nat → (Nat → Nat → Nat) → Nat := fun m f =>
      (List.range m).foldl (fun a j => (List.range 32).foldl (fun a c => a ||| f j c) a) 0
    let tileIs : State → BitVec 2 → Nat → Nat → (Nat → Nat → Nat) → Prop := fun t a r0 m v =>
      (∀ b, b ≠ a → (t.arr n).tile b = (s.arr n).tile b) ∧
      (∀ j c, j < m → c < 32 → tget 0 (32 * (r0 + j) + c) ((t.arr n).tile a).t = v j c) ∧
      ∀ i c, c < 32 → (i < r0 ∨ r0 + m ≤ i) →
        tget 0 (32 * i + c) ((t.arr n).tile a).t = tget 0 (32 * i + c) ((s.arr n).tile a).t
    let scales : State → BitVec 2 → Nat → Nat → Nat → Nat → Prop := fun t a r0 m sa sb =>
      ∀ j, j < m → tget one32 (r0 + j) ((t.arr n).tile a).sa = sa ∧ tget one32 (r0 + j) ((t.arr n).tile a).sb = sb
    let old : Bool → BitVec 2 → Nat → Nat → Nat := fun acc a i c =>
      if acc then tget 0 (32 * i + c) ((s.arr n).tile a).t else 0
    let basis : Bool → Nat → List Basis := fun deriv j => (s.splineVec n o.da j).map ((s.arr n).grid.basis deriv)
    ((s.arr n).startable o = true → s.matCheck n o = none →
      ∃ t o', exec (.matrixOpStart n st) s = .next t ∧ OnlyCore s t n ∧ (t.arr n).queue st = o' :: r ∧
        o' = { o with started := some (s.arr n).act, latch := o'.latch }) ∧
    (∀ code, (s.arr n).startable o = true → s.matCheck n o = some code →
      ∃ t f, exec (.matrixOpStart n st) s = .next t ∧ (t.arr n).queue st = { o with started := none, held := true } :: r ∧
        (t.ctx o.key).pend = (s.ctx o.key).pend ++ [f] ∧ f.info.code = code ∧ f.srce = 3 ∧
        f.held = some (.matrix st) ∧ t.spad = s.spad ∧ t.dram = s.dram) ∧
    (∀ p, o.started = some p → s.matBad n o = none →
      (o.instr = .mfence → (s.arr n).earlier o.id = false) →
      ∃ t, exec (.matrixOpComplete n st) s = .next t ∧ (t.arr n).queue st = r ∧ t.dram = s.dram ∧
        (∀ q, o.instr = .mswap q → t.arr n = { s.arr n with act := 1 - (s.arr n).act, queues := (t.arr n).queues } ∧
          t.spad = s.spad ∧ t.ctxs = s.ctxs) ∧
        (∀ q a, o.instr = .mzero q a → ((t.arr n).tile a) = {} ∧ t.spad = s.spad ∧ t.ctxs = s.ctxs ∧
          ∀ b, b ≠ a → (t.arr n).tile b = (s.arr n).tile b) ∧
        (∀ q, o.instr = .mgzero q → (t.arr n).grad = [] ∧ t.spad = s.spad ∧ t.ctxs = s.ctxs) ∧
        (∀ q a set d rev acc row0, o.instr = .mmul q a set d rev acc row0 → t.spad = s.spad ∧
          (∀ b, b ≠ a → (t.arr n).tile b = (s.arr n).tile b) ∧
          ∀ i c, c < 32 → (i < row0.toNat ∨ row0.toNat + dVecs o.da ≤ i) →
            tget 0 (32 * i + c) ((t.arr n).tile a).t = tget 0 (32 * i + c) ((s.arr n).tile a).t) ∧
        (∀ q set d sp xm, o.instr = .mloadw q set d sp xm → t.spad = s.spad ∧ t.ctxs = s.ctxs ∧
          (∀ e, e ≠ 1 - p → (t.arr n).plane e = (s.arr n).plane e) ∧
          let pl := (t.arr n).plane (1 - p)
          let x := tget {} set.toNat pl.sets
          pl.spline = false ∧ x.fmt = dType o.da ∧ x.sparse = sp ∧ x.sw = bits o.da.toNat 96 32 ∧
          (sp = true → x.groups = s.row n row) ∧
          (∀ k c, k < 32 → c < 32 → tget 0 (32 * k + c) x.cells = if c < V then
            (weightsOf (dType o.da) (s.arr n).codebook (dCols o.da) (s.vecElems n o.da id c)).getD k 0 else 0) ∧
          (∀ b, b < (if sp then 64 else 32) → tget 127 b x.xw = s.scaleByte n o.da b) ∧
          ∀ e, e ≠ set.toNat → tget {} e pl.sets =
            if ((s.arr n).plane (1 - p)).spline then {} else tget {} e ((s.arr n).plane (1 - p)).sets) ∧
        (∀ q xs, o.instr = .mcbook q xs → t.spad = s.spad ∧ t.ctxs = s.ctxs ∧ ∀ e, e < 256 →
          tget 0 e (t.arr n).codebook = elem 32 (s.row n (row + e / 64)) (e % 64)) ∧
        (∀ a set rev acc (row0 : BitVec 7) (idx : Nat → Nat),
          ((∃ q d, o.instr = .mmul q a set d rev acc row0) ∧ idx = id) ∨
            ((∃ q d vi, o.instr = .mmulg q a set d rev acc row0 vi) ∧ idx = fun j => elem 32 o.vi j) →
          let x : WeightSet := tget {} set.toNat ((s.arr n).plane p).sets
          let v : Nat → Nat → Nat × Nat := fun j c =>
            x.update rev ((s.vecElems n o.da idx j).map (elemVal (dType o.da))) (fun b => s.scaleByte n o.da (2 * j + b)) c
              (old acc a (row0.toNat + j) c)
          t.spad = s.spad ∧ tileIs t a row0.toNat V (fun j c => (v j c).1) ∧
          (acc = false → scales t a row0.toNat V (bits o.da.toNat 96 32) x.sw) ∧ flags t (orAll V fun j c => (v j c).2)) ∧
        (∀ q a d (row0 : BitVec 7) rnd clr qq sl, o.instr = .mdrain q a d row0 rnd clr qq sl →
          let m := s.drainRows n o a row0.toNat rnd qq sl
          let out : Nat → List (Nat × Nat) := fun j =>
            convRow o (dType o.da) rnd j (((s.arr n).tile a).scaled (row0.toNat + j))
          (qq = false → m.1 = s ∧ m.2.1 = (List.range V).map (fun j => (out j).map (·.1)) ∧
            flags t ((List.range V).foldl (fun f j => (out j).foldl (fun f e => f ||| e.2)
              ((((s.arr n).tile a).scaled (row0.toNat + j)).foldl (fun f e => f ||| e.2) f)) 0)) ∧
          t.spad = (if dByCol o.da then (List.range 32).foldl (fun u i =>
              u.writeTileRow n o.da i (m.2.1.map fun l => l.getD i 0)) m.1
            else m.2.1.zipIdx.foldl (fun u e => u.writeTileRow n o.da e.2 e.1) m.1).spad ∧
          (t.ctx o.key).stat.fpstat = (m.1.ctx o.key).stat.fpstat ||| BitVec.ofNat 64 m.2.2 ∧
          (clr = false → (t.arr n).tile a = (s.arr n).tile a) ∧
          (clr = true → tileIs t a row0.toNat V (fun _ _ => 0) ∧ scales t a row0.toNat V one32 one32)) ∧
        (∀ q a vd (row0 : BitVec 7) rnd ty clr, o.instr = .mdrainV q a vd row0 rnd ty clr →
          let m := convRow o ty rnd 0 (((s.arr n).tile a).scaled row0.toNat)
          t.spad = s.spad ∧ flags t (m.foldl (fun f e => f ||| e.2) 0) ∧
          (vd ∈ (s.ctx o.key).vwait → (t.ctx o.key).vwait = (s.ctx o.key).vwait.erase vd ∧
            ∀ k, k < 2048 / ty.width → elem ty.width ((t.ctx o.key).vr vd) k = (m.getD k (0, 0)).1 % 2 ^ ty.width) ∧
          (∀ v, v ≠ vd → (t.ctx o.key).vr v = (s.ctx o.key).vr v) ∧
          (clr = false → (t.arr n).tile a = (s.arr n).tile a) ∧
          (clr = true → tileIs t a row0.toNat 1 (fun _ _ => 0) ∧ scales t a row0.toNat 1 one32 one32)) ∧
        (∀ q xd sel clr, o.instr = .mstat q xd sel clr → t.spad = s.spad ∧
          (xd ∈ (s.ctx o.key).xwait → xd ≠ 0 → (t.ctx o.key).xr xd =
            if sel = 3 then (s.arr n).status o.id else BitVec.ofNat 64 (tget 0 sel.toNat (s.arr n).counters)) ∧
          (∀ e, tget 0 e (t.arr n).counters = if clr ∧ e = sel.toNat then 0 else tget 0 e (s.arr n).counters) ∧
          ∀ x, x ≠ xd → (t.ctx o.key).xr x = (s.ctx o.key).xr x) ∧
        (∀ q xs, o.instr = .mknot q xs → t.spad = s.spad ∧ t.ctxs = s.ctxs ∧
          (t.arr n).knctl = BitVec.ofNat 64 (elem 64 o.latch 7) ∧
          ∀ i, i < 13 → tget 0 i (t.arr n).kn = elem 32 o.latch i) ∧
        (∀ q xs, o.instr = .mknotC q xs → t.spad = s.spad ∧ t.ctxs = s.ctxs ∧
          (∀ e, e ≠ 1 - p → (t.arr n).plane e = (s.arr n).plane e) ∧ ((t.arr n).plane (1 - p)).spline = true ∧
          ∀ i, i < 16384 → tget 0 i ((t.arr n).plane (1 - p)).slots = elem 16 (s.row n (row + i / 128)) (i % 128)) ∧
        (∀ q a d acc (row0 : BitVec 7), o.instr = .mspl q a d acc row0 →
          let v : Nat → Nat → FV := fun j c => (basis false j).zipIdx.foldl (fun col b =>
            rndV (sumV [col, ((s.arr n).plane p).cell b.2 c b.1])) (kv (fmt32.decode (old acc a (row0.toNat + j) c)))
          let cls := (List.range V).flatMap fun j => (basis false j).map (·.cls)
          t.spad = s.spad ∧ tileIs t a row0.toNat V (fun j c => codeV (v j c)) ∧
          (acc = false → scales t a row0.toNat V one32 one32) ∧
          (t.arr n).counters = countClasses (s.arr n).counters cls ∧
          flags t (orAll V (fun j c => (v j c).2) + if cls.any (· != 0) then fOGRID else 0)) ∧
        (∀ q a dg d acc (row0 : BitVec 7), o.instr = .msplb q a dg d acc row0 →
          let v : Nat → Nat → FV := fun j c => match (basis true j)[c]? with
            | none => kv (fmt32.decode (old acc a (row0.toNat + j) c))
            | some b => (s.splineVec n o.dg j).zipIdx.foldl (fun col g =>
                rndV (sumV [col, mulV (kv g.1) (((s.arr n).plane p).sum c g.2 b)]))
                (kv (fmt32.decode (old acc a (row0.toNat + j) c)))
          t.spad = s.spad ∧ tileIs t a row0.toNat V (fun j c => codeV (v j c)) ∧
          (acc = false → scales t a row0.toNat V one32 one32) ∧ flags t (orAll V fun j c => (v j c).2)) ∧
        (∀ q dg d, o.instr = .msplg q dg d →
          let was : Nat → Nat := fun i => tget 0 i (s.arr n).grad
          let v : Nat → FV := fun i => (List.range V).foldl (fun v j =>
            match (basis false j)[i / 512]?, (s.splineVec n o.dg j)[i / 16 % 32]? with
            | some b, some g => (match b.factor (i % 16) with | some f => rndV (sumV [v, mulV (kv g) f]) | none => v)
            | _, _ => v) (kv (fmt32.decode (was i)))
          t.spad = s.spad ∧ flags t ((List.range 16384).foldl (fun f i => f ||| (v i).2) 0) ∧ ∀ i, i < 16384 →
            tget 0 i (t.arr n).grad = if (v i).1 = fmt32.decode (was i) then was i else codeV (v i)) ∧
        (∀ q, o.instr = .mrefine q → p ≤ 1 →
          let g := (s.arr n).grid
          let fine : Plane → Nat → Nat × Nat := fun x i =>
            refineSlot g.p g.g (fun e => tget 0 (i / 16 * 16 + e) x.slots) (i % 16)
          let fl : Plane → Nat := fun x => (List.range 16384).foldl (fun f i => f ||| (fine x i).2) 0
          t.spad = s.spad ∧
          flags t (fl ((s.arr n).plane p) |||
            if ((s.arr n).plane (1 - p)).spline then fl ((s.arr n).plane (1 - p)) else 0) ∧
          (∀ i, i < 16384 → tget 0 i ((t.arr n).plane p).slots = (fine ((s.arr n).plane p) i).1 ∧
            tget 0 i ((t.arr n).plane (1 - p)).slots =
              if ((s.arr n).plane (1 - p)).spline then (fine ((s.arr n).plane (1 - p)) i).1
              else tget 0 i ((s.arr n).plane (1 - p)).slots) ∧
          (∀ l, l ≤ 2 * g.g → tget 0 l (t.arr n).kn = (fmt32.rne (g.refined l)).1) ∧
          (g.g ≤ 6 → bits (t.arr n).knctl.toNat 2 4 = 2 * g.g ∧
            (∀ b, b < 32 → b < 2 ∨ 6 ≤ b → (t.arr n).knctl.getLsbD b = (s.arr n).knctl.getLsbD b) ∧
            bits (t.arr n).knctl.toNat 32 32 = codeV (mulV (ki 2 0) (kv g.invh)) % 2 ^ 32)) ∧
        (∀ q src xs, o.instr = .mgdrain q src xs → s.rowsFault n row (gsrcRows src) = none →
          (∀ i, i < gsrcRows src → src ≠ .kn → t.row n (row + i) = match src with
            | .g => imageRow 32 (s.arr n).grad i
            | .ca => imageRow 16 ((s.arr n).plane p).slots i
            | _ => imageRow 16 ((s.arr n).plane (1 - p)).slots i) ∧
          (src = .kn → (∀ i, i < 13 → elem 32 (t.row n row) i = tget 0 i (s.arr n).kn % 2 ^ 32) ∧
            elem 64 (t.row n row) 7 = (s.arr n).knctl.toNat ∧
            ∀ b, 64 ≤ b → b < 256 → elem 8 (t.row n row) b = elem 8 (s.row n row) b)))

/-! ## Global memory and the probe cache (spec/09) -/

/-- PROBE and PFILL without a probe set take the operand-format trap (R214, R216). The probe instructions complete in a
context with a probe set: PROBE of a VALID slot reads the row's address and NOTLIVE; of a FILLING slot it branches with the
address; a miss whose victim can be written back gives the slot to the block, begins its fill, which is translated then, and
branches; PFILL does the same on a miss without x[rd] or the PC, and nothing on a hit; PWB writes a dirty slot back, PINV
discards a slot, PINV.all all slots, and PINV.cfg installs a set (R91, R202, R211 to R217). That a fill's block is read and
translated at its PROBE (log 57), and that PFILL does not hold the core (log 60), are the model's choice. -/
def Obligations.ProbeInstructions : Prop :=
  ∀ (s : State) (rd rs base xs : XReg) (imm off : BitVec 32) (i e : Nat),
    let p := s.me.probe
    let blk : Word → Nat := fun v => v.toNat / 256 * 256
    let va := s.rx rs
    let ea := s.rx base + off.signExtend 64
    let holds : Word → Prop := fun v => i < p.nslot ∧ (p.slot i).st ≠ .invalid ∧ (p.slot i).tag = blk v ∧
      ∀ j, j < i → (p.slot j).st = .invalid ∨ (p.slot j).tag ≠ blk v
    let misses : Word → Prop := fun v => ∀ j, j < p.nslot → (p.slot j).st = .invalid ∨ (p.slot j).tag ≠ blk v
    let victim := i < p.nslot ∧ (((p.slot i).st = .invalid ∧ ∀ j, j < i → (p.slot j).st ≠ .invalid) ∨
      ((∀ j, j < p.nslot → (p.slot j).st ≠ .invalid) ∧ (p.order.filter fun j => (p.slot j).st == .valid).getLast? = some i))
    let pl := rowPlace (s.isFused s.myCore) s.myCore (p.srow + i)
    let canWrite := (p.slot i).dirty ≠ 0 → s.translate (unitOf s.iss.key) (p.slot i).tag .write = .ok e ∧
      s.pageMig (unitOf s.iss.key) ((p.slot i).tag / 2 ^ 21) = false ∧ s.migHeld = [] ∧
      s.stageRoom (unitOf s.iss.key) s.iss.key (p.slot i).tag 1 = true ∧ s.rowBad pl.1 pl.2 0 256 = false
    let staged := if (p.slot i).dirty = 0 then s.me.staged else addStaged s.me.staged
      (pteByte e (p.slot i).tag / 256) (p.slot i).tag ⟨s.me.epoch, (p.slot i).dirty, s.row s.myCore (p.srow + i)⟩
    let only : State → Prop := fun t => t = { s with ctxs := t.ctxs, cores := t.cores, tlb := t.tlb } ∧
      (∀ k, k ≠ s.iss.key → t.ctx k = s.ctx k) ∧ (∀ n, n ≠ s.myCore → t.core n = s.core n)
    let x1 : State → Word → Prop := fun t v => ∀ q, t.me.xr q = if q = rd ∧ q ≠ 0 then v else s.me.xr q
    let slots : State → ProbeSlot → Prop := fun t y => ∀ j, t.me.probe.slot j = if j = i then y else p.slot j
    let next : State → Nat → Prop := fun t n => t.core s.myCore = { s.core s.myCore with nextIssue := s.clk + n }
    let addr := 256 * (p.srow + i)
    let gone := if (s.core s.myCore).code.any fun b => b.block == (s.iss.pcb + imm.signExtend 55).toNat / 128 then 5 else 4
    let taken : State → Nat → Prop := fun t tag => ∃ f, slots t { tag := tag, st := .filling, fill := f } ∧
      f.map (·.pte) = s.pte (unitOf s.iss.key) tag ∧ ((p.slot i).dirty = 0 → f = s.takeFill s.iss.key tag)
    (p.nslot = 0 → TrapsAtIssue (.probe rd rs imm) s 10 0 0 ∧ TrapsAtIssue (.pfill base off) s 10 0 0) ∧
    (holds va → (p.slot i).st = .valid → ∃ t, exec (.probe rd rs imm) s = .next t ∧ only t ∧ next t 4 ∧
      x1 t (BitVec.ofNat 64 (addr + if (p.slot i).notlive then 1 else 0)) ∧ slots t (p.slot i) ∧
      t.me = { s.me with regs := { s.me.regs with x := t.me.regs.x }, probe := t.me.probe }) ∧
    (holds va → (p.slot i).st = .filling → ∃ t, exec (.probe rd rs imm) s = .next t ∧ only t ∧ next t gone ∧
      x1 t (BitVec.ofNat 64 addr) ∧ slots t (p.slot i) ∧
      t.me = { s.me with regs := { s.me.regs with x := t.me.regs.x }, pc := s.iss.pcb + imm.signExtend 55 }) ∧
    (misses va → victim → canWrite → ∃ t, exec (.probe rd rs imm) s = .next t ∧ only t ∧ next t gone ∧
      x1 t (BitVec.ofNat 64 addr) ∧ taken t (blk va) ∧ t.me = { s.me with
        regs := { s.me.regs with x := t.me.regs.x }, pc := s.iss.pcb + imm.signExtend 55, probe := t.me.probe
        staged := staged, samples := t.me.samples }) ∧
    (misses ea → victim → canWrite → ∃ t, exec (.pfill base off) s = .next t ∧ only t ∧ t.cores = s.cores ∧
      taken t (blk ea) ∧ t.me = { s.me with probe := t.me.probe, staged := staged, samples := t.me.samples }) ∧
    (holds ea → exec (.pfill base off) s = .next s) ∧
    (holds ea → canWrite → ∃ t, exec (.pwb base off) s = .next t ∧ only t ∧ t.cores = s.cores ∧
      slots t { p.slot i with dirty := 0 } ∧ t.me = { s.me with probe := t.me.probe, staged := staged }) ∧
    (misses ea → exec (.pwb base off) s = .next s) ∧
    (holds ea → ∃ t, exec (.pinv base off) s = .next t ∧ OnlyCtx s t s.iss.key ∧ slots t {} ∧
      t.me = { s.me with probe := t.me.probe }) ∧
    (∃ t, exec .pinvAll s = .next t ∧ OnlyCtx s t s.iss.key ∧ (∀ j, t.me.probe.slot j = {}) ∧
      t.me = { s.me with probe := { t.me.probe with srow := p.srow, nslot := p.nslot } }) ∧
    (s.pinvCfgFault (s.rx xs) = none → ∃ t, exec (.pinvCfg xs) s = .next t ∧ OnlyCtx s t s.iss.key ∧
      t.me = { s.me with probe := { srow := (s.rx xs).toNat % 2 ^ 16, nslot := (s.rx xs).toNat / 2 ^ 16 % 2 ^ 11 } })

/-- A probe fill whose block was read at its PROBE (log 57) leaves the slot VALID, with the C flag of its page and, in the
bytes that no write has replaced, what was read there under the context's own pending writes, and sets EVT; one that met no
table entry or an uncorrectable error is held, and its context gets the fault; and it ends on the clk of an evaluation of
its context before that only (R99, R203, R211, R214, R218, R222). AMOG completes on an aligned address with room, and joins
the context's recorded atomics; a misaligned one takes the operand-format trap (R227). GBAR and PHASE complete once the
episode at which their bundle arrived in the present mode is complete, and leave the arrival of the other mode alone (an
arrival for each mode: log 59); PHASE is then an acquire, which leaves no slot of a block that is not constant, and makes
the dirty bytes of one a pending write (R223, R224, R269). A release whose step 2 is met, of a context with no recorded
atomic and no writeback that waits, with no page in a migration window, completes: each staged byte of it reaches global
memory, a dead block reading zero in the others, a byte of no committed block stays as it was, the blocks keep what later
releases own, and the release of TDONE ends the share and leaves the context idle, in user mode also where a trap has woken
it (R209, R220, R221, R267). -/
def Obligations.FillsAtomicsAndReleases : Prop :=
  (∀ (s : State) (k : CtxKey) (slot : BitVec 11) (b : Row) (nl w64 : Bool) (op : AmogOp) (xs base : XReg)
    (off : BitVec 32) (g : BitVec 8) (e i : Nat) (d : Option (Row × Bool)),
    let x := (s.ctx k).probe.slot slot.toNat
    let row := s.spadAddr (keyCore k) (256 * ((s.ctx k).probe.srow + slot.toNat))
    let ea := (s.rx base + off.signExtend 64).toNat
    let fresh := (s.core (keyCore k)).evaled ≠ some (s.clk, keyCtx k)
    let passes := s.listed g s.iss.key = true ∧
      (if s.me.sys then s.me.arrivedSys else s.me.arrived) = some ⟨g, s.iss.pcb, true⟩
    (x.st = .filling → x.held = false → slot.toNat < (s.ctx k).probe.nslot → fresh → x.fill = some ⟨e, d⟩ → d = some (b, nl) →
      ∃ t, exec (.probeFillComplete k slot) s = .next t ∧ t.cores = s.cores ∧ t.dram = s.dram ∧
        (t.ctx k).probe.slot slot.toNat = { x with st := .valid, fill := none, c := pteC e, notlive := nl } ∧
        (t.ctx k).evt = true ∧ (t.ctx k).regs = (s.ctx k).regs ∧ ∀ j, tget 0 j t.spad.bytes =
          if row ≤ j ∧ j < row + 256 ∧ x.dirty.getLsbD (j - row) = false then
            BitVec.ofNat 8 (elem 8 (s.overlayOwn k (pteByte e x.tag / 256) b) (j - row))
          else tget 0 j s.spad.bytes) ∧
    (¬ fresh → exec (.probeFillComplete k slot) s = .refused .notEnabled) ∧
    (x.st = .filling → x.held = false → slot.toNat < (s.ctx k).probe.nslot → fresh →
      x.fill = none ∨ (x.fill = some ⟨e, d⟩ ∧ d = none) →
      ∃ t f, exec (.probeFillComplete k slot) s = .next t ∧ t.cores = s.cores ∧ t.dram = s.dram ∧ t.spad = s.spad ∧
        (t.ctx k).probe.slot slot.toNat = { x with held := true } ∧ (t.ctx k).evt = true ∧
        (t.ctx k).pend = (s.ctx k).pend ++ [f] ∧ f.info.code = (if x.fill = none then 7 else 14) ∧
        f.info.eaddr = BitVec.ofNat 64 x.tag ∧ f.srce = 7 ∧ f.held = some (.probe slot.toNat)) ∧
    (ea % (if w64 then 8 else 4) = 0 → s.me.stagedCount < 1024 →
      ∃ t, exec (.amog op w64 xs base off) s = .next t ∧ OnlyCtx s t s.iss.key ∧ t.me = { s.me with
        amogs := s.me.amogs ++ [{ num := s.me.acc, ea := ea, op := op, w64 := w64, epoch := s.me.epoch, held := false
                                  val := (s.rx xs).toNat % (if w64 then 2 ^ 64 else 2 ^ 32) }]
        acc := s.me.acc + 1 }) ∧
    (ea % (if w64 then 8 else 4) ≠ 0 → TrapsAtIssue (.amog op w64 xs base off) s 10 0 0) ∧
    (passes → ∃ t, exec (.gbar g) s = .next t ∧ OnlyCtx s t s.iss.key ∧ t.me =
      (if s.me.sys then { s.me with arrivedSys := none } else { s.me with arrived := none })) ∧
    (passes → s.abortDue s.iss.key = false → ∃ t, exec (.phase g) s = .next t ∧
      (if s.me.sys then t.me.arrivedSys = none ∧ t.me.arrived = s.me.arrived
        else t.me.arrived = none ∧ t.me.arrivedSys = s.me.arrivedSys) ∧
      t.me.samples = [] ∧ t.me.regs = s.me.regs ∧ t.dram = s.dram ∧ t.spad = s.spad ∧ t.cores = s.cores ∧
      (∀ j, (s.me.probe.slot j).c = false → (t.me.probe.slot j).st = .invalid) ∧
      let y := s.me.probe.slot i
      let pl := rowPlace (s.isFused s.myCore) s.myCore (s.me.probe.srow + i)
      (y.st ≠ .invalid → y.c = false → y.dirty ≠ 0 →
        (∀ j, j ≠ i → (s.me.probe.slot j).dirty = 0) →
        s.translate (unitOf s.iss.key) y.tag .write = .ok e →
        s.pageMig (unitOf s.iss.key) (y.tag / 2 ^ 21) = false → s.migHeld = [] →
        s.stageRoom (unitOf s.iss.key) s.iss.key y.tag 1 = true → s.rowBad pl.1 pl.2 0 256 = false →
        t.me.staged = addStaged s.me.staged (pteByte e y.tag / 256) y.tag
          ⟨s.me.epoch, y.dirty, s.row s.myCore (s.me.probe.srow + i)⟩)) ∧
    (s.listed g s.iss.key = false → TrapsAtIssue (.gbar g) s 8 0 0)) ∧
  (∀ (s : State) (k : CtxKey) (r : Release), (s.ctx k).releases = [r] → s.releasable k r = true → (s.ctx k).amogs = [] →
    (s.ctx k).unstaged = [] → s.migHeld = [] → (∀ w ∈ s.relStaged k r, s.inWindow k w.va = false) →
    ∃ t, exec (.releaseComplete k) s = .next t ∧ (t.ctx k).releases = [] ∧ t.spad.bytes = s.spad.bytes ∧
      (t.ctx k).regs = (s.ctx k).regs ∧
      (r.kind ≠ .tdone → ∀ w ∈ (t.ctx k).staged, ∃ y ∈ (s.ctx k).staged, w.blk = y.blk ∧ w.va = y.va ∧ w.parts =
        if (s.relStaged k r).any (fun z => z.blk == y.blk) then y.parts.filter fun p => decide (r.epoch < p.epoch)
        else y.parts) ∧
      (r.kind ≠ .tdone → ((s.relStaged k r).map (·.blk)).Nodup → ∀ w ∈ s.relStaged k r, s.blkLost w.blk = false →
        tget false w.blk t.dram.dead = false ∧ ∀ j, j < 256 → tget 0 (256 * w.blk + j) t.dram.bytes =
          if (r.parts w).any fun p => p.mask.getLsbD j then BitVec.ofNat 8 (elem 8 (overlayParts (r.parts w) 0) j)
          else if tget false w.blk s.dram.dead then 0 else tget 0 (256 * w.blk + j) s.dram.bytes) ∧
      (r.kind ≠ .tdone → ∀ j, (∀ w ∈ s.relStaged k r, w.blk ≠ j / 256) → tget 0 j t.dram.bytes = tget 0 j s.dram.bytes) ∧
      (r.kind = .tdone → (s.ctx k).share.held = true → (s.ctx k).sys = false ∨ (s.ctx k).run = .parked [] →
        (t.ctx k).share = {} ∧ (t.ctx k).run = .idle ∧ (t.core (keyCore k)).ref = keyCtx k))

/-- A failed pseudo-channel that was normal degrades, and while a reserve channel remains it is rebuilt at once (R206),
behind another rebuild of its stack (the model's choice, log 60); after both are spent it stays degraded (R207); each move
of the first rebuild takes the next block, and after the last one the channel is retired; blocks that system software frees
are marked dead; and no byte of global memory changes (R206, R207, R209). Two failed members of a parity group make its
blocks unreadable, whichever channel they lie on, and a write to them has no effect (R207). That a dead mark of system
software is translated by the I/O die's unit is the model's choice (log 25). -/
def Obligations.StacksAndDeadBlocks : Prop :=
  ∀ (s : State) (n : BitVec 3) (pc : BitVec 9) (c len : Nat) (later : List Nat) (addr : Word),
    let x := tget {} n.toNat s.dram.hbm
    let y : State → StackState := fun t => tget {} n.toNat t.dram.hbm
    let chan : State → Nat → PcState → Prop := fun t c v =>
      ∀ q, tget .normal q (y t).chan = if q = c then v else tget .normal q x.chan
    let dead := (blockPieces addr.toNat len).filterMap fun p =>
      (s.pte 8 p.1).bind fun e => if pteLp e then none else some (pteByte e p.1 / 256)
    let here := n.toNat * 2 ^ 28 + x.moved
    (pc.toNat < 384 → tget .normal pc.toNat x.chan = .normal → x.retired.length + x.rebuild.length < 2 →
      ∃ t, exec (.channelFailure n pc) s = .next t ∧ t.dram.bytes = s.dram.bytes ∧ chan t pc.toNat .rebuilding ∧
        y t = { x with chan := (y t).chan, rebuild := x.rebuild ++ [pc.toNat] } ∧
        t.ctxs = s.ctxs ∧ t.cores = s.cores ∧ t.spad = s.spad) ∧
    (pc.toNat < 384 → tget .normal pc.toNat x.chan = .normal → 2 ≤ x.retired.length + x.rebuild.length →
      ∃ t, exec (.channelFailure n pc) s = .next t ∧ t.dram.bytes = s.dram.bytes ∧ chan t pc.toNat .degraded ∧
        y t = { x with chan := (y t).chan } ∧ t.ctxs = s.ctxs ∧ t.cores = s.cores ∧ t.spad = s.spad) ∧
    (x.rebuild = c :: later → x.moved + 1 < 58 * 2 ^ 22 →
      ∃ t, exec (.rebuildBlockMove n) s = .next t ∧ t.dram.bytes = s.dram.bytes ∧ y t = { x with moved := x.moved + 1 } ∧
        ∀ b, tget false b t.dram.err = (tget false b s.dram.err || (b == here && s.blkLost here))) ∧
    (x.rebuild = c :: later → x.moved + 1 = 58 * 2 ^ 22 →
      ∃ t, exec (.rebuildBlockMove n) s = .next t ∧ t.dram.bytes = s.dram.bytes ∧ chan t c .retired ∧
        y t = { x with chan := (y t).chan, moved := 0, rebuild := later, retired := x.retired ++ [c] }) ∧
    (∀ p q b : Nat, p < 384 → q < 384 → p ≠ q → p % 32 = x.pcFor b % 32 → q % 32 = x.pcFor b % 32 →
      (∀ g, g = p ∨ g = q → g ∉ x.leftOut b ∧ (tget .normal g x.chan = .degraded ∨ tget .normal g x.chan = .rebuilding)) →
      b < 2 ^ 28 → s.blkLost (n.toNat * 2 ^ 28 + b) = true ∧
        ∀ m v, s.commitBlk (n.toNat * 2 ^ 28 + b) m v = s) ∧
    (∃ t, exec (.systemDeadMark addr len) s = .next t ∧ t = { s with dram := t.dram, tlb := t.tlb } ∧
      t.dram = { s.dram with dead := t.dram.dead } ∧
      ∀ b, tget false b t.dram.dead = (tget false b s.dram.dead || dead.contains b))

/-! ## Handles, copies, gathers and scatters (spec/10) -/

/-- The handle instructions complete where their handle is in the state they require: BWAIT reads its status, BSET.cfg sets
its rows, BSET.full and BSET.free change its state and clear the status. A value of BSET.cfg with another set bit or without
rows takes the operand-format trap, and a range past the extent the scratchpad range trap with the address of its first row
beyond (R235). XCHAIN of an address with a set bit in [5:0] or [63:56] takes the operand-format trap; otherwise it starts an
IDLE channel, resumes a WAITING one, and answers 1, or answers 0 with no effect. XGATH and XSCAT complete on aligned lanes
within the handle's rows, and hand the handle to the engine; more lanes than NROWS, or a lane that is not aligned to 16
bytes, take the operand-format trap, the latter alone with the least such lane's address in SR_EADDR (R230 to R237, R244;
that it is 0 where both hold is the model's choice, log 61). -/
def Obligations.HandleInstructions : Prop :=
  ∀ (s : State) (rd xs xh : XReg) (h ch : BitVec 6) (free : Bool) (va nm1 : VReg),
    let x := s.handle s.myCore h
    let v := (s.rx xs).toNat
    let d := coreDie s.myCore
    let c := s.chan d ch
    let a := (s.rx xh).toNat
    let start := if c.st = .waiting ∧ a = 0 then c.addr else a
    let lanes := (List.range (nm1.toNat + 1)).map fun i => elem 64 (s.rv va) i
    let starts : State → HState → Bool → Prop := fun t y scatter =>
      t = { s with cores := t.cores, starts := s.starts + 1 } ∧ (∀ n, n ≠ s.myCore → t.core n = s.core n) ∧
      t.core s.myCore = { s.core s.myCore with handles := (t.core s.myCore).handles, gathers :=
        (s.core s.myCore).gathers ++ [{ key := s.iss.key, h := h, scatter := scatter, addrs := lanes, id := s.starts, held := false }] } ∧
      ∀ g, t.handle s.myCore g = if g = h then { x with st := y } else s.handle s.myCore g
    (x.st = (if free then .free else .full) → ToX (.bwait rd h free) s rd x.status) ∧
    (x.st = .free → v < 2 ^ 31 → v / 2 ^ 16 ≠ 0 → (v % 2 ^ 16 + v / 2 ^ 16) * 256 ≤ s.extent s.myCore →
      ∃ t, exec (.bsetCfg h xs) s = .next t ∧ OnlyHandle s t s.myCore h { x with brow := v % 2 ^ 16, nrows := v / 2 ^ 16 }) ∧
    (2 ^ 31 ≤ v ∨ v / 2 ^ 16 = 0 → TrapsAtIssue (.bsetCfg h xs) s 10 0 0) ∧
    (v < 2 ^ 31 → v / 2 ^ 16 ≠ 0 → s.extent s.myCore < (v % 2 ^ 16 + v / 2 ^ 16) * 256 →
      TrapsAtIssue (.bsetCfg h xs) s 9 (BitVec.ofNat 64 (max (v % 2 ^ 16 * 256) (s.extent s.myCore))) 0) ∧
    (2 ^ 56 ≤ a ∨ a % 64 ≠ 0 → TrapsAtIssue (.xchain rd xh ch) s 10 (s.rx xh) 0) ∧
    (x.st = .free → ∃ t, exec (.bsetFull h) s = .next t ∧ OnlyHandle s t s.myCore h { x with st := .full, status := 0 }) ∧
    (x.st = .full → ∃ t, exec (.bsetFree h) s = .next t ∧ OnlyHandle s t s.myCore h { x with st := .free, status := 0 }) ∧
    (a % 64 = 0 → a < 2 ^ 56 → c.st = .waiting ∨ (c.st = .idle ∧ a ≠ 0) →
      ∃ t, exec (.xchain rd xh ch) s = .next t ∧ t = { s with ctxs := t.ctxs, dies := t.dies, starts := s.starts + 1 } ∧
        (∀ k, k ≠ s.iss.key → t.ctx k = s.ctx k) ∧ (∀ e, e ≠ d → t.die e = s.die e) ∧
        t.die d = { s.die d with chans := (t.die d).chans } ∧
        (∀ q, t.chan d q = if q = ch then
            { st := .walking, addr := start, owner := s.iss.key, id := s.starts
              chain := if c.st = .waiting ∧ a = 0 then c.chain else s.starts }
          else s.chan d q) ∧
        t.me = { s.me with regs := { s.me.regs with x := t.me.regs.x } } ∧
        ∀ q, t.me.xr q = if q = rd ∧ q ≠ 0 then 1 else s.me.xr q) ∧
    (a % 64 = 0 → a < 2 ^ 56 → c.st = .walking ∨ c.st = .held ∨ (c.st = .idle ∧ a = 0) → ToX (.xchain rd xh ch) s rd 0) ∧
    ((∀ l ∈ lanes, l % 16 = 0) → nm1.toNat + 1 ≤ x.nrows → x.st = .free →
      ∃ t, exec (.xgath h va nm1) s = .next t ∧ starts t .filling false) ∧
    ((∀ l ∈ lanes, l % 16 = 0) → nm1.toNat + 1 ≤ x.nrows → x.st = .full →
      ∃ t, exec (.xscat h va nm1) s = .next t ∧ starts t .draining true) ∧
    (x.nrows < nm1.toNat + 1 →
      TrapsAtIssue (.xgath h va nm1) s 10 0 0 ∧ TrapsAtIssue (.xscat h va nm1) s 10 0 0) ∧
    (∀ bad, nm1.toNat + 1 ≤ x.nrows → lanes.find? (fun l => l % 16 != 0) = some bad →
      TrapsAtIssue (.xgath h va nm1) s 10 (BitVec.ofNat 64 bad) 0 ∧
      TrapsAtIssue (.xscat h va nm1) s 10 (BitVec.ofNat 64 bad) 0)

/-- A walking channel reads its next record: where OWN is 0 it waits; otherwise a record that passes the checks is taken up,
or holds the channel. A record with a handle takes it once it is FREE, and waits before. A piece whose source has been read
is written to a scratchpad in place of what stood there, and nowhere else; one whose destination is global memory becomes
pending writes of its owner. After the last piece OWN and STATUS are committed, and with them the rest of a dead block as
zeros; a handle of the record, where it has one, is FULL, and the channel goes on to the next record, or is IDLE (R209,
R231, R232, R240, R241). A gather whose lanes can be read fills the rows of its handle, lane i into row i, and leaves the
handle FULL; a scatter whose rows meet no error reads its rows, leaves its handle FREE, and where it finds room stages row i
at lane i in ascending order; a lane that cannot be written is held and faults, with those below it staged and the handle
FREE; a row in error holds it with the handle DRAINING; no byte of global memory changes (R220, R233, R244). -/
def Obligations.CopyEvents : Prop :=
  (∀ (s u : State) (die : BitVec 3) (ch h : BitVec 6) (l bs : List Byte) (nl : Bool) (r : CopyRec) (e : Nat),
    let d := die.toNat
    let x := s.chan d ch
    let k := x.owner
    let n := keyCore k
    let set : State → CopyChan → Prop := fun t y => ∀ q, t.chan d q = if q = ch then y else s.chan d q
    let sa := (pieceAddr r.src r.sstr r.piece).toNat
    let da := (pieceAddr r.dst (if r.decomp then 0 else r.dstr) r.piece).toNat
    let dst := bits r.dst 32 12 * 0x60000 + da
    let key := pteByte e x.addr
    let free := fun h => (s.handle n h).st = .free ∧ s.issueOver n = true
    let mayGo := ∀ h, r.handle = some h → r.got = true ∨ free h
    let moved : State → Prop := fun t =>
      set t { x with cur := some { r with piece := r.piece + 1, notlive := r.notlive || nl, got := r.handle.isSome || r.got } } ∧
      t.dram = s.dram ∧ ∀ h, r.handle = some h → r.got = false → (t.handle n h).st = .filling
    let v := if inSpad r.src then s else (s.cacheN d sa r.len).useSamples d k sa r.len
    x.st = .walking →
    (x.cur = none → s.commitRecord d ch = .done u → u.readVA d (some k) x.addr 64 = .ok (l, nl) →
      (l.getD 40 0).getLsbD 0 = false →
      ∃ t, exec (.copyRecord die ch) s = .next t ∧ set t { x with st := .waiting } ∧ t.spad = s.spad) ∧
    (x.cur = none → s.commitRecord d ch = .done u → u.readVA d (some k) x.addr 64 = .ok (l, nl) →
      (l.getD 40 0).getLsbD 0 = true → copyOk l = true →
      ∃ t, exec (.copyRecord die ch) s = .next t ∧ set t { x with cur := some (copyFields l) } ∧ t.spad = s.spad) ∧
    (x.cur = none → s.commitRecord d ch = .done u → u.readVA d (some k) x.addr 64 = .ok (l, nl) →
      (l.getD 40 0).getLsbD 0 = true → copyOk l = false →
      ∃ t, exec (.copyRecord die ch) s = .next t ∧ set t { x with st := .held } ∧ t.spad = s.spad ∧
        ∃ f, (t.ctx k).pend = (u.ctx k).pend ++ [f] ∧ f.info.code = 10 ∧ f.srce = 4 ∧ f.held = some (.copy die ch)) ∧
    (x.cur = some r → r.handle = some h → r.got = false → (s.handle n h).st ≠ .free →
      exec (.copyRecord die ch) s = .refused .notEnabled) ∧
    (x.cur = some r → r.piece < r.count → mayGo → s.pieceRead d k r r.piece = .ok (bs, nl) → inSpad r.dst = true →
      ∃ t, exec (.copyRecord die ch) s = .next t ∧ moved t ∧ ∀ j, tget 0 j t.spad.bytes =
          if dst ≤ j ∧ j < dst + bs.length then bs.getD (j - dst) 0 else tget 0 j s.spad.bytes) ∧
    (x.cur = some r → r.piece < r.count → mayGo → s.pieceRead d k r r.piece = .ok (bs, nl) → inSpad r.dst = false →
      v.writeFault d da bs.length = none → v.stageRoom d k da bs.length = true →
      (∀ p ∈ pagesOf da bs.length, v.pageMig d p = false) → s.migHeld = [] →
      ∃ t, exec (.copyRecord die ch) s = .next t ∧ moved t ∧ t.spad = s.spad ∧
        (t.ctx k).staged = ((v.stageBytes d k da bs ((s.ctx k).copyEpoch x.id)).ctx k).staged) ∧
    (x.cur = some r → r.piece = r.count → mayGo → s.translate d x.addr .write = .ok e →
      s.pageMig d (x.addr / 2 ^ 21) = false → s.migHeld = [] → x.addr % 64 = 0 → s.blkLost (key / 256) = false →
      ∃ t, exec (.copyRecordComplete die ch) s = .next t ∧ t.spad = s.spad ∧ t.ctxs = s.ctxs ∧
        set t (if r.next = 0 then { x with st := .idle, addr := 0, cur := none } else { x with addr := r.next, cur := none }) ∧
        (r.handle = none → t.cores = s.cores) ∧
        (r.handle = some h →
          t.handle n h = { s.handle n h with st := .full, status := handleStatus 0 r.notlive 1 (r.len * r.count) }) ∧
        tget false (key / 256) t.dram.dead = false ∧ t.recs = s.recs ++ [(x.chain, key / 256)] ∧
        (tget 0 (key + 40) t.dram.bytes).getLsbD 0 = false ∧
        tget 0 (key + 48) t.dram.bytes = (if r.notlive then 16 else 0) ∧
        (∀ j, key + 49 ≤ j → j < key + 56 → tget 0 j t.dram.bytes = 0) ∧
        ∀ j, j ≠ key + 40 → (j < key + 48 ∨ key + 56 ≤ j) → tget 0 j t.dram.bytes =
          if j / 256 = key / 256 ∧ tget false (key / 256) s.dram.dead = true then 0 else tget 0 j s.dram.bytes)) ∧
  (∀ (s : State) (n : CoreNo) (h : BitVec 6) (g : Gather) (data : Nat → List Byte) (nl : Nat → Bool),
    let brow := (s.handle n h).brow
    let gone : State → Prop := fun t => ∀ y ∈ (t.core n).gathers, y.id ≠ g.id
    let scatters := (s.core n).gathers.find? (fun g => g.h == h && g.scatter && !g.held) = some g ∧ g.rows = none ∧ g.lane = 0
    let freed : State → Prop := fun t => t.dram = s.dram ∧ t.spad = s.spad ∧
      t.handle n h = { s.handle n h with st := .free, status := handleStatus 0 false 3 (256 * g.addrs.length) }
    let unshut := (∀ a ∈ g.addrs, ∀ p ∈ pagesOf a 256, s.pageMig (coreDie n) p = false) ∧ s.migHeld = [] ∧
      (s.ctx g.key).stagedCount + 2 * g.addrs.length ≤ 1024
    let stagedAt : State → Nat → Prop := fun t m =>
      (t.ctx g.key).staged = (((g.addrs.take m).zipIdx.foldl (fun u e => u.stageBytes (coreDie n) g.key e.1
        (rowBytes (s.row n (brow + e.2)) 0 256) ((s.ctx g.key).copyEpoch g.id)) s).ctx g.key).staged
    let faults : State → Nat → Nat → Nat → Prop := fun t i code ea =>
      (∃ y ∈ (t.core n).gathers, y.id = g.id ∧ y.held = true) ∧
      ∃ f, (t.ctx g.key).pend = (s.ctx g.key).pend ++ [f] ∧ f.info.code = code ∧ f.info.eaddr = BitVec.ofNat 64 ea ∧
        f.info.einfo = engInfo 5 h.toNat i ∧ f.srce = 5 ∧ f.held = some (.scatter g.id)
    ((s.core n).gathers.find? (fun g => g.h == h && !g.scatter && !g.held) = some g →
      (brow + g.addrs.length) * 256 ≤ s.extent n → (s.ctx g.key).samples = [] →
      (∀ i a, g.addrs[i]? = some a → s.readVA (coreDie n) (some g.key) a 256 = .ok (data i, nl i)) →
      ∃ t, exec (.xgathComplete n h) s = .next t ∧ gone t ∧ (t.handle n h).st = .full ∧ t.dram = s.dram ∧
        ∀ i b, i < g.addrs.length → b < 256 →
          tget 0 (s.spadAddr n (256 * (brow + i)) + b) t.spad.bytes = (data i).getD b 0) ∧
    (scatters → s.scatterFault n g brow = none → unshut → (∀ a ∈ g.addrs, s.writeFault (coreDie n) a 256 = none) →
      ∃ t, exec (.xscatComplete n h) s = .next t ∧ gone t ∧ freed t ∧ stagedAt t g.addrs.length) ∧
    (∀ i a code ea, scatters → s.scatterFault n g brow = none → unshut → g.addrs[i]? = some a →
      (∀ b ∈ g.addrs.take i, s.writeFault (coreDie n) b 256 = none) → s.writeFault (coreDie n) a 256 = some (code, ea) →
      ∃ t, exec (.xscatComplete n h) s = .next t ∧ freed t ∧ stagedAt t i ∧ faults t i code ea) ∧
    (∀ i ea, scatters → s.scatterFault n g brow = some (i, ea) →
      ∃ t, exec (.xscatComplete n h) s = .next t ∧ faults t i 14 ea ∧ t.dram = s.dram ∧ t.spad = s.spad ∧
        t.handle n h = s.handle n h ∧ (t.ctx g.key).staged = (s.ctx g.key).staged))

/-! ## Locket (spec/11) -/

/-- The STASH commands complete where their command block lies in the extent without error and holds no reserved value,
no acquire is awaited and, for those that take one, the handle is FREE: the command is sent, the handle is FILLING, and a
partial release of its region begins; STASHQ makes its register wait. Nothing else is written to a register or a memory,
once the context's earlier fused accesses are performed (R186, R246, R247; log 11). -/
def Obligations.StashCommands : Prop :=
  ∀ (s : State) (h : BitVec 6) (rd base : XReg) (off : BitVec 32) (mx8 dead bf16 : Bool),
    let ea := s.rx base + off.signExtend 64
    let z := s.flush
    let l := z.block64At s.myCore ea
    let sends : Instr → StashKind → Prop := fun i kind =>
      stashBlockOk kind l = true → (s.handle s.myCore h).st = .free →
      ∃ t, exec i s = .next t ∧ t.stash = s.stash ++ [stashCmd s.starts s.iss.key h kind l] ∧ t.starts = s.starts + 1 ∧
        (∀ g, t.handle s.myCore g = if g = h then { s.handle s.myCore h with st := .filling } else s.handle s.myCore g) ∧
        KeepsData z t ∧
        (if (stashCmd s.starts s.iss.key h kind l).len = 0 then t.me.releases = s.me.releases
         else ∃ r, t.me.releases = s.me.releases ++ [r] ∧ r.kind = .stash s.starts ∧ r.ranges =
           [((stashCmd s.starts s.iss.key h kind l).region, (stashCmd s.starts s.iss.key h kind l).len)])
    z.blockFault ea = none → NoAcquire s →
    sends (.stashc h base off mx8 dead bf16) (.c mx8 dead bf16) ∧ sends (.stashs h base off dead) (.s dead) ∧
    sends (.stashd h base off) .d ∧ sends (.stashp h base off) .p ∧ sends (.stashf h base off) .f ∧
    (stashBlockOk (.q rd) l = true → ∃ t, exec (.stashq rd base off) s = .next t ∧
      t.stash = s.stash ++ [stashCmd s.starts s.iss.key 0 (.q rd) l] ∧ AwaitsX z t rd ∧
      t = { z with ctxs := t.ctxs, stash := t.stash, starts := s.starts + 1 })

/-- Locket receives the next command of a context once its release is complete, and answers a query at once; a STASHC or
STASHS that is performed with a result OK makes its entry STORING, and each entry that is STORING counts among the 1,024 of
TABLEFULL (R248); a received command that is the first for its entry ends its data work: the table then holds the entry that
the command makes, or none after STASHF; a result other than OK changes nothing else; the command then returns, which writes
the rows that it restores and leaves the handle FULL with its status (R247 to R251, R382). That STASHQ is answered at the
command's receipt, that an entry is STORING from the moment at which a command is performed with a result OK, and that the
place is a free operand of the schedule, are the model's reading (log 46). -/
def Obligations.StashEvents : Prop :=
  ∀ (s u : State) (k : CtxKey) (c : StashCmd) (idx place size : Nat) (xd : XReg) (nl : Bool) (bs : List Byte) (st : Word),
    let x := s.lstage c.stage
    let n := keyCore c.key
    let brow := (s.handle n c.h).brow
    let others := (s.stashRx.filter fun r => r.storing && r.ret.isNone && r.stage == c.stage && r.id != c.id).length
    let res := c.result x others (s.handle n c.h).nrows
    let plain := fun (y : StashCmd) => { y with storing := false }
    let E : State → Option StashEntry := fun t => (t.lstage c.stage).find c.tag c.slot
    let receives := s.stash.find? (fun y => y.key == k) = some c ∧ ∀ r ∈ (s.ctx k).releases, r.kind ≠ .stash c.id
    let ready := s.stashRx[idx]? = some c ∧ c.held = false ∧ ∀ y ∈ s.stashRx.take idx, y.same c = false
    (receives → c.key = k → (∀ q, c.kind ≠ .q q) → ∃ t, exec (.stashCommandReceipt k) s = .next t ∧
      t = { s with stash := s.stash.erase c, stashRx := t.stashRx } ∧
      t.stashRx.map plain = (s.stashRx ++ [c]).map plain ∧
      (s.stashRx = [] → c.ret = none → c.kind.storesData = true → c.result x 0 (s.handle n c.h).nrows = 0 →
        t.stashRx = [{ c with storing := true }])) ∧
    (receives → c.key = k → c.kind = .q xd → ∃ t, exec (.stashCommandReceipt k) s = .next t ∧
      Replied s t k xd (s.stashWord c) ∧ t = { s with ctxs := t.ctxs, stash := s.stash.erase c }) ∧
    (ready → c.ret = none → res ≠ 0 → ∃ t, exec (.stashCommandComplete idx place) s = .next t ∧
      t = { s with stashRx := t.stashRx } ∧
      t.stashRx[idx]? = some { c with ret := some (BitVec.ofNat 64 (res + 256 * c.kind.srck), []) }) ∧
    (ready → c.ret = none → res = 0 → (∀ lp m, c.need = some (lp, m) → x.freeAt lp (256 * place) m = true) →
      s.stashWork c place = .ok (u, size, nl, bs) →
      ∃ t, exec (.stashCommandComplete idx place) s = .next t ∧ t.ctxs = s.ctxs ∧ t.cores = s.cores ∧ t.spad = s.spad ∧
        t.stashRx[idx]? = some { c with ret := some (handleStatus 0 nl c.kind.srck size, bs) } ∧
        (∀ mx8 dead bf16, c.kind = .c mx8 dead bf16 → ∃ e, E t = some e ∧ e.st = .compressed ∧ e.off = place ∧
          e.len = c.len ∧ e.kind = if mx8 then 1 else 0) ∧
        (∀ dead, c.kind = .s dead → ∃ e, E t = some e ∧ e.st = .spilled ∧ e.off = place ∧ e.size = c.len ∧ e.kind = 2) ∧
        (c.kind = .d → ∃ e, E t = some e ∧ e.st = .dropped ∧ e.kind = 3) ∧
        (∀ e, c.kind = .p → E s = some e → E t = some { e with st := .ready }) ∧ (c.kind = .f → E t = none)) ∧
    (ready → c.ret = some (st, bs) → (brow + bs.length / 256) * 256 ≤ s.extent n →
      ∃ t, exec (.stashCommandComplete idx place) s = .next t ∧ t.dram = s.dram ∧ (∀ y ∈ t.stashRx, y.id ≠ c.id) ∧
        t.handle n c.h = { s.handle n c.h with st := .full, status := st } ∧
        ∀ i b, i < bs.length / 256 → b < 256 →
          tget 0 (s.spadAddr n (256 * (brow + i)) + b) t.spad.bytes = bs.getD (256 * i + b) 0)

/-! ## Tasks and jobs (spec/12) -/

/-- TARM, TDEC, EARLY, WAITVIS, ABORT and ABCHK complete: TARM, where no acquire is awaited (R186), sends a checked record
to a dispatcher and makes its register wait; TDEC sends a decrement; EARLY makes the early decrements once, those of the own
die's tasks at once and the others by messages; WAITVIS is an acquire once FULL is zero; ABORT acts on a task of the
context's own die and is sent to another; ABCHK goes on while the flag is clear, and enters the abort code at the first
sample of a flag that is set, once x1 to x3 wait on no reply (R42, R256 to R261, R270 to R272; that TARM reads its record
after the context's earlier fused accesses is the model's choice, log 11). -/
def Obligations.TaskInstructions : Prop :=
  ∀ (s : State) (rd base rs : XReg) (off : BitVec 32) (own early : Bool) (die : BitVec 3) (n : BitVec 16),
    let k := s.iss.key
    let ea := s.rx base + off.signExtend 64
    let z := s.flush
    let l := z.block64At s.myCore ea
    let d := if own then coreDie s.myCore else die.toNat
    let id := (s.rx rs).toNat % 2 ^ 32
    let share := s.me.share
    let away : State → Nat → Prop := fun t id => OnlyDie s t (id / 2 ^ 12 % 8) ∧ t.die (id / 2 ^ 12 % 8) =
      { s.die (id / 2 ^ 12 % 8) with aborts := (s.die (id / 2 ^ 12 % 8)).aborts ++ [id] }
    let early1 : Nat → BitVec 32 → DecMsg := fun d e =>
      { src := 2 ^ 14 + d, id := e.toNat % 2 ^ 15 + 2 ^ 16 * (e.toNat / 2 ^ 17), low := true, early := true, n := 1 }
    (z.blockFault ea = none → recordOk l = true → NoAcquire s →
      ∃ t, exec (.tarm rd base off own die) s = .next t ∧ AwaitsX z t rd ∧
      t = { z with ctxs := t.ctxs, dies := t.dies } ∧ (∀ e, e ≠ d → t.die e = s.die e) ∧
      t.die d = { s.die d with arms := (s.die d).arms ++ [{ reply := some (k, rd), record := l }] }) ∧
    (z.blockFault ea = none → recordOk l = false → NoAcquire s → TrapsAtIssue (.tarm rd base off own die) s 10 0 0) ∧
    (∃ t, exec (.tdec rs early n) s = .next t ∧ OnlyDie s t (id / 2 ^ 12 % 8) ∧ t.die (id / 2 ^ 12 % 8) =
      { s.die (id / 2 ^ 12 % 8) with decs := (s.die (id / 2 ^ 12 % 8)).decs ++
        [{ src := k.toNat, id := id, low := false, early := early, n := n.toNat }] }) ∧
    (∃ t, exec .early s = .next t ∧ t = { s with dies := t.dies } ∧ (share.held = false → t = s) ∧
      ∀ d j x, share.held = true → s.findTask share.task = some (d, j, x) →
        (t.taskAt d j).earlyMade = true ∧ (x.earlyMade = true → t.dies = s.dies) ∧
        (x.earlyMade = false →
          (∀ e, e ≠ d → t.die e = { s.die e with decs := (s.die e).decs ++
            (x.succ.filter fun y => y.getLsbD 16 && decide (y.toNat / 2 ^ 12 % 8 = e)).map (early1 d) }) ∧
          t.die d = ((x.succ.filter fun y => y.getLsbD 16 && decide (y.toNat / 2 ^ 12 % 8 = d)).foldl
            (fun u y => u.applyDec (early1 d y)) (s.mapTask d j fun x => { x with earlyMade := true })).die d)) ∧
    (share.held = true → s.fullOf k = 0 → ∃ t, exec .waitvis s = .next t ∧ KeepsData s t ∧ t.me.samples = [] ∧
      ∀ i, (s.me.probe.slot i).c = false → (t.me.probe.slot i).st = .invalid) ∧
    (share.held = false → TrapsAtIssue .waitvis s 8 0 0 ∧ TrapsAtIssue .abortSelf s 8 0 0 ∧ TrapsAtIssue .tdone s 8 0 0) ∧
    (∃ t, exec (.abort rs) s = .next t ∧
      if id / 2 ^ 12 % 8 = coreDie s.myCore then Aborts s t id else away t id) ∧
    (share.held = true → ∃ t, exec .abortSelf s = .next t ∧
      if share.task / 2 ^ 12 % 8 = coreDie s.myCore then Aborts s t share.task else away t share.task) ∧
    (s.abortDue k = false → exec .abchk s = .next s) ∧
    (∀ d j x c, s.abortDue k = true → s.findTask share.task = some (d, j, x) → x.job = some c →
      (∀ q ∈ s.me.xwait, q ≠ 1 ∧ q ≠ 2 ∧ q ≠ 3) →
      ∃ t, exec .abchk s = .next t ∧ t.me.pc = BitVec.ofNat 55 (c.abent / 2) ∧ t.me.share.aborted = true ∧
        t.me.share.abf = true ∧ t.dram = s.dram ∧ t.spad = s.spad ∧ ∀ q, t.me.xr q =
          if q = 1 then BitVec.ofNat 64 share.task else if q = 2 then 0
          else if q = 3 then BitVec.ofNat 64 (s.cursorOf k) else s.me.xr q)

/-- TDONE, JNEXT and JPROG of a context that holds a share and is not being stopped: TDONE ends the chunk, begins a full
release and parks until it is complete; JNEXT ends the chunk, and branches to the next one with its card, count and first
record in x1, x2 and x3 and its budget in SR_BUDGET, or falls through with x2 zero; JPROG moves the cursor and writes it
into the job control block, a page in a migration window holding the write, and past LAST takes the operand-format trap;
without a share the three take the protection trap (R208, R263, R266, R267, R277). That a context is parked, with no
condition of its own, from the issue of TDONE to the end of its release is the model's choice, on which R267, R97 and R98
are silent (log 62); and so are that a dispatcher's write is held under its own die's unit (log 45), that JNEXT takes its
chunk in the issuing step, that JPROG without an open chunk completes where its count is zero (log 27), and that SR_BUDGET
takes its budget modulo 2^48 (log 53). -/
def Obligations.ChunkInstructions : Prop :=
  ∀ (s v : State) (imm : BitVec 32) (rs : XReg) (d j g : Nat) (x : Task) (c : Card) (e : JEntry) (bs : List Byte) (nl : Bool),
    let k := s.iss.key
    let u := s.endChunk k
    let n := (s.rx rs + BitVec.ofNat 64 imm.toNat).toNat
    let w := c.jcb + 64 + 16 * e.idx + 8
    (s.me.share.held = false →
      TrapsAtIssue .tdone s 8 0 0 ∧ TrapsAtIssue (.jnext imm) s 8 0 0 ∧ TrapsAtIssue (.jprog rs imm) s 8 0 0) ∧
    (s.me.share.held = true →
    (s.me.stop ≠ .running → ∃ t r, exec .tdone s = .next t ∧ t.me.run = .parked [] ∧ t.me.share.ending = true ∧
      t.me.share.chunk = none ∧ t.me.releases = s.me.releases ++ [r] ∧ r.kind = .tdone ∧ r.ranges = [] ∧
      t.me.regs = s.me.regs ∧ t.spad = s.spad ∧ (∀ q, (t.ctx q).regs = (s.ctx q).regs) ∧
      (s.migHeld = [] → ∀ q, q ≠ k → t.ctx q = s.ctx q)) ∧
    (s.me.stop ≠ .running → s.abortDue k = false → u.findTask s.me.share.task = some (d, j, x) → x.job = some c →
      u.takeChunk d j k = some (e, v) →
      ∃ t, exec (.jnext imm) s = .next t ∧ t.me.pc = s.iss.pcb + imm.signExtend 55 ∧
        t.me.share.chunk = some { entry := e.idx, first := e.first, last := e.last } ∧
        t.me.stat = { s.me.stat with rndctr := BitVec.ofNat 64 (e.first * 2 ^ 20) } ∧ t.spad = s.spad ∧
        t.me.budget = (if c.ovh = 0 ∧ c.cpr = 0 then { remain := 0, counting := false, off := true } else
          { remain := (c.ovh + (e.last - e.first) * c.cpr) % 2 ^ 48, since := s.clk, counting := true, off := false }) ∧
        (t.core s.myCore).nextIssue = s.branchClk s.myCore (s.iss.pcb + imm.signExtend 55) ∧ ∀ q, t.me.xr q =
          if q = 1 then BitVec.ofNat 64 (c.args + c.rsize * e.first) else if q = 2 then BitVec.ofNat 64 (e.last - e.first)
          else if q = 3 then BitVec.ofNat 64 e.first else s.me.xr q) ∧
    (s.me.stop ≠ .running → s.abortDue k = false →
      (∀ d j x, u.findTask s.me.share.task = some (d, j, x) → u.takeChunk d j k = none) →
      ∃ t, exec (.jnext imm) s = .next t ∧ t.me.pc = s.me.pc ∧ t.me.share.chunk = none ∧ t.spad = s.spad ∧
        ∀ q, t.me.xr q = if q = 2 then 0 else s.me.xr q) ∧
    (s.openEntry k = some (d, j, c, e) → e.cursor + n ≤ e.last →
      ∃ t, exec (.jprog rs imm) s = .next t ∧ t.openEntry k = some (d, j, c, { e with cursor := e.cursor + n }) ∧
        (∀ q, (t.ctx q).regs = (s.ctx q).regs) ∧ (s.migHeld = [] → t.ctxs = s.ctxs) ∧ t.cores = s.cores ∧ t.spad = s.spad ∧
        (c.jcb % 64 = 0 → s.migHeld = [] → s.writeFault d w 4 = none → s.readVA d none w 4 = .ok (bs, nl) →
          (s.pageMig d (w / 2 ^ 21) = true → t.dram = s.dram ∧
            t.migHeld = [⟨.jcb d j w (toBytes 4 (e.cursor + n)), w / 2 ^ 21⟩]) ∧
          (s.pageMig d (w / 2 ^ 21) = false → s.pte d w = some g → s.blkLost (pteByte g w / 256) = false →
            ∀ i, i < 4 → tget 0 (pteByte g w + i) t.dram.bytes = (toBytes 4 (e.cursor + n)).getD i 0))) ∧
    (s.openEntry k = some (d, j, c, e) → e.last < e.cursor + n → TrapsAtIssue (.jprog rs imm) s 10 0 0) ∧
    (s.openEntry k = none → n = 0 → exec (.jprog rs imm) s = .next s))

/-- A dispatcher that is ready arms the next request in its lowest free slot and replies with the id, or replies 2^64 - 1
where the table is full; a decrement that matches its task is subtracted, saturating, and a counter that reaches zero
moves the task on: a WAITING task becomes EARLY or READY and goes last into the ready queue of its rank, an EARLY one READY
where it stands; one that matches none has no effect; an ABORT from another die acts; and a reply reaches its
register and ends the wait (R253 to R260, R270). -/
def Obligations.DispatcherEvents : Prop :=
  ∀ (s : State) (die : BitVec 3) (idx j : Nat) (q : ArmReq) (k : CtxKey) (rd : XReg) (v : Word) (m : DecMsg) (id : Nat),
    let d := die.toNat
    let rec_ := q.record
    let full := dfield rec_ 4 2
    let e := m.id / 2 ^ 12 % 8
    let slot := m.id % 2 ^ 12
    let x := s.taskAt e slot
    let hit := x.st ≠ .free ∧ m.id / 2 ^ 15 % 2 = 0 ∧
      if m.low then x.gen.toNat % 2 ^ 15 = m.id / 2 ^ 16 % 2 ^ 15 else x.gen.toNat = m.id / 2 ^ 16 % 2 ^ 16
    let first := (s.die d).decs[idx]? = some m ∧ ∀ y ∈ (s.die d).decs.take idx, y.src ≠ m.src
    (s.dieUp d = true → (s.die d).arms[idx]? = some q → q.reply = some (k, rd) →
      (j < 4096 → (s.taskAt d j).st = .free → (∀ i, i < j → (s.taskAt d i).st ≠ .free) →
        ∃ t, exec (.taskArmRequest die idx) s = .next t ∧
          Replied s t k rd (BitVec.ofNat 64 (j + 4096 * d + 65536 * (s.taskAt d j).gen.toNat)) ∧
          (∀ i, t.taskAt d i = if i = j then recordTask rec_ (s.taskAt d j).gen none else s.taskAt d i) ∧
          (∀ r, tget [] r (t.die d).ready = tget [] r (s.die d).ready ++
            if r = dfield rec_ 1 1 ∧ full = 0 then [j] else []) ∧
          KeepsData s t) ∧
      ((∀ i, i < 4096 → (s.taskAt d i).st ≠ .free) → ∃ t, exec (.taskArmRequest die idx) s = .next t ∧
        Replied s t k rd (BitVec.allOnes 64) ∧ (t.die d).tasks = (s.die d).tasks ∧ KeepsData s t)) ∧
    let zero := if m.early then x.earlyc ≠ 0 ∧ x.earlyc ≤ m.n else x.full ≠ 0 ∧ x.full ≤ m.n
    (s.dieUp d = true → first → hit → x.st = .waiting → m.ack = none →
      ∃ t, exec (.taskDecrementArrival die idx) s = .next t ∧ t = { s with dies := t.dies } ∧
        (t.taskAt e slot = if m.early
          then { x with earlyc := x.earlyc - m.n, st := if x.earlyc ≠ 0 ∧ x.earlyc ≤ m.n then .early else .waiting }
          else { x with full := x.full - m.n, st := if x.full ≠ 0 ∧ x.full ≤ m.n then .ready else .waiting }) ∧
        (zero → ∀ r, tget [] r (t.die e).ready = tget [] r (s.die e).ready ++ if r = x.rank then [slot] else []) ∧
        (¬ zero → (t.die e).ready = (s.die e).ready)) ∧
    (s.dieUp d = true → first → hit → x.st = .early → m.ack = none →
      ∃ t, exec (.taskDecrementArrival die idx) s = .next t ∧ t = { s with dies := t.dies } ∧
        (t.die e).ready = (s.die e).ready ∧ t.taskAt e slot = if m.early then x
          else { x with full := x.full - m.n, st := if x.full ≠ 0 ∧ x.full ≤ m.n then .ready else .early }) ∧
    (s.dieUp d = true → first → ¬ hit → m.ack = none → ∃ t, exec (.taskDecrementArrival die idx) s = .next t ∧ OnlyDie s t d ∧
      t.die d = { s.die d with decs := (s.die d).decs.eraseIdx idx }) ∧
    (s.dieUp d = true → (s.die d).aborts[idx]? = some id → ∃ t, exec (.abortMessageArrival die idx) s = .next t ∧
      Aborts (s.mapDie d fun y => { y with aborts := y.aborts.eraseIdx idx }) t id) ∧
    ((s.ctx k).replies[idx]? = some (rd, v) → rd ∈ (s.ctx k).xwait →
      ∃ t, exec (.engineReplyArrival k idx) s = .next t ∧ OnlyCtx s t k ∧
        t.ctx k = { s.ctx k with regs := { (s.ctx k).regs with x := (t.ctx k).regs.x }
                                 replies := (s.ctx k).replies.eraseIdx idx, xwait := (s.ctx k).xwait.erase rd } ∧
        ∀ q, (t.ctx k).xr q = if q = rd ∧ q ≠ 0 then v else (s.ctx k).xr q)

/-- The dispatcher deals the next chunk of its earliest started task that can deal to its lowest idle member; the share
starts in user mode at ENTRY with its card, count and first record in x1, x2 and x3 and an empty code buffer; the
arbiter's pick starts a task of its ready queues with the members that its group then has; a pre-emption point raises its
event; and a budget that has counted down leaves an overrun trap due (R258, R262 to R265, R276, R277, R354). The number of
the event is the model's choice (log 33), and so is the treatment of the card and the control block at a start (log 26). -/
def Obligations.SharesAndArbitration : Prop :=
  ∀ (s u : State) (die : BitVec 3) (key : CtxKey) (k : Nat) (r : List Nat) (x : Task) (c : Card) (e : JEntry) (y : Deal)
    (l b : List Byte) (f g : Bool),
    let d := die.toNat
    let p := (s.die d).period.toNat
    let bud := (s.ctx key).budget
    (s.dieUp d = true → (s.die d).running = k :: r → s.dealTo d k (s.taskAt d k) = some key → (s.taskAt d k).bad = none →
      s.takeChunk d k key = some (e, u) →
      ∃ t, exec (.chunkDeal die) s = .next t ∧ (t.ctx key).share.deal = some
        { task := taskId d k (s.taskAt d k).gen, entry := e.idx, first := e.first, last := e.last,
          fuse := (s.taskAt d k).fuse, bad := none, dict := (s.taskAt d k).job.bind fun c => s.dictOf d c.dict
          isFirst := (s.taskAt d k).undealt } ∧
        (t.taskAt d k).shares = (s.taskAt d k).shares + 1 ∧ (t.taskAt d k).undealt = false ∧ s.isIdle key = true ∧
        key ∈ (s.taskAt d k).mem ∧
        t.isFused (keyCore key) = (s.taskAt d k).fuse ∧ (∀ q, (t.ctx q).regs = (s.ctx q).regs)) ∧
    (∀ d, (s.ctx key).share.deal = some y → s.findTask y.task = some (d, k, x) → x.job = some c → y.bad = none →
      s.loadWindow key c.dict = .ok u → (∀ q ∈ (s.ctx key).xwait, q ≠ 1 ∧ q ≠ 2 ∧ q ≠ 3) →
      ∃ t, exec (.shareStart key) s = .next t ∧ (t.ctx key).run = .ready ∧ (t.ctx key).sys = false ∧
        (t.ctx key).pc = BitVec.ofNat 55 (c.entry / 2) ∧ (t.ctx key).evt = false ∧ (t.ctx key).share.held = true ∧
        (t.ctx key).share.task = y.task ∧ (t.ctx key).share.deal = none ∧ (t.core (keyCore key)).code = [] ∧
        (t.ctx key).stat = { (s.ctx key).stat with rndctr := BitVec.ofNat 64 (y.first * 2 ^ 20) } ∧
        t.spad = s.spad ∧ t.dram = s.dram ∧ ∀ q, (t.ctx key).xr q =
          if q = 1 then BitVec.ofNat 64 (c.args + c.rsize * y.first) else if q = 2 then BitVec.ofNat 64 (y.last - y.first)
          else if q = 3 then BitVec.ofNat 64 y.first else (s.ctx key).xr q) ∧
    (s.clk % 4 = 0 → s.dieUp d = true → (∃ q, coreDie (keyCore q) = d ∧ (s.ctx q).run = .idle) →
      (s.die d).acted ≠ some s.clk → s.pick d = some k → s.readVA d none (s.taskAt d k).card 64 = .ok (l, f) →
      cardOk l = true → s.jcbBad d (cardOf l) = none →
      s.readVA d none (cardOf l).jcb (64 + 16 * (cardOf l).jslots) = .ok (b, g) → b.getD 8 0 = 0 →
      ∃ t, exec (.arbiterPick die) s = .next t ∧ (t.taskAt d k).st = .running ∧ (t.taskAt d k).started = s.clk ∧
        (t.taskAt d k).undealt = true ∧
        (t.taskAt d k).mem = s.members (s.taskAt d k).group ∧
        (t.taskAt d k).job = some (cardOf l) ∧ (t.die d).running = (s.die d).running ++ [k] ∧
        (t.die d).acted = some s.clk ∧ (∀ q, (t.ctx q).regs = (s.ctx q).regs) ∧ (s.migHeld = [] → t.ctxs = s.ctxs) ∧
        t.cores = s.cores ∧ t.spad = s.spad) ∧
    (p ≠ 0 → s.clk % p = 0 → (s.die d).point ≠ some s.clk → ∃ t, exec (.preemptionPoint die) s = .next t ∧
      (t.die d).point = some s.clk ∧ UnitOnly s t ∧ Raised s t 2 d (s.clk % 2 ^ 32)) ∧
    (bud.counting = true → bud.off = false → bud.since + bud.remain ≤ s.clk →
      ∃ t, exec (.budgetOverrun key) s = .next t ∧ (t.ctx key).overrun = true ∧
        (t.ctx key).budget = { bud with remain := 0, counting := false } ∧ KeepsData s t ∧
        ∀ cs, (s.ctx key).run = .parked cs → (s.ctx key).sys = false → (t.ctx key).run = .ready)

/-! ## Launch queues and Clasp (spec/12, spec/13) -/

/-- The host's write of a write pointer and QCTL complete in every state; pointers further apart than SIZE overrun a queue
in every state but OVERRUN. A step on the head packet of a queue holds the queue while FUNCREADY lacks a bit of WHY, and
otherwise performs the packet's command and takes the packet (R273, R274, R353). QPUSH completes where its packet lies in
the extent without error and no acquire is awaited (R186): the packet sets out and its register waits, or the answer is 3
where the module cannot be reached. A packet that arrives is counted in ERRC and answered 1 where no entry of the access
table covers it, is answered 2 by a queue that does not run, and otherwise its 64 bytes are written into the ring at WP,
which goes on by one, with the answer 0 (R275); a packet whose place lies in a migration window is held (R208; log 45); and
where the table does not let the ring be written there (R201), no byte is written and WP stays. That such a packet is then
counted in ERRC and answered 1, with an event (log 35), that the ring is translated by the I/O die's unit, number 8 (log
25), the numbers of the events (log 33), the bits of x[xq] that QPUSH ignores and WHY after HALT (log 35), which modules can
be reached (log 15), and that QPUSH reads its packet after the context's earlier fused accesses (log 11) are the model's
choice. -/
def Obligations.LaunchQueues : Prop :=
  (∀ (s : State) (h : BitVec 6) (q : BitVec 7) (wp : BitVec 32) (l r : List Byte) (nl : Bool) (j : Nat),
    let x := s.queue q.toNat
    let y := s.queue h.toNat
    let set : State → Nat → LaunchQ → Prop := fun t i z => ∀ k, t.queue k = if k = i then z else s.queue k
    let host : State → Prop := fun t => t = { s with queues := t.queues, events := t.events }
    let lacks : BitVec 32 := BitVec.ofNat 32 (dfield l 4 4) &&& ~~~(s.funcready.setWidth 32)
    let head := s.headPacket q.toNat = some (some l)
    let good := head ∧ lacks = 0 ∧ packetOk l = true
    let took : State → Prop := fun t => set t q.toNat { x with rp := x.rp + 1, st := 0, need := 0, why := 0 }
    let a0 := dfield l 8 8
    let a1 := dfield l 16 8
    let v := a1 % 8
    let cq := a1 / 16 % 8
    (y.st ≠ 2 → y.size < (wp - y.rp).toNat → ∃ t, exec (.hostWpWrite h wp) s = .next t ∧ host t ∧
      set t h.toNat { y with wp := wp, rp := wp, st := 2, need := 0, why := 0 } ∧ Raised s t 4 h.toNat 0) ∧
    (y.st = 2 ∨ (wp - y.rp).toNat ≤ y.size → ∃ t, exec (.hostWpWrite h wp) s = .next t ∧ host t ∧
      set t h.toNat { y with wp := wp } ∧ t.events = s.events) ∧
    (x.st = 3 → (x.wp - x.rp).toNat ≤ x.size → ∃ t, exec (.qctlGo q) s = .next t ∧ host t ∧
      set t q.toNat { x with st := 0 }) ∧
    (x.st ≠ 3 → exec (.qctlGo q) s = .next s) ∧
    (∃ t, exec (.qctlReset q) s = .next t ∧ host t ∧
      set t q.toNat { x with st := 3, rp := 0, wp := 0, errc := 0, need := 0, why := 0 }) ∧
    (∃ t, exec (.qctlHalt q) s = .next t ∧ host t ∧ set t q.toNat (if x.st ≤ 1 then { x with st := 3 } else x)) ∧
    (head → lacks ≠ 0 → ∃ t, exec (.launchNop q) s = .next t ∧ UnitOnly s t ∧
      set t q.toNat { x with st := 1, need := BitVec.ofNat 32 (dfield l 4 4), why := lacks }) ∧
    (good → dfield l 0 1 = 0 → ∃ t, exec (.launchNop q) s = .next t ∧ UnitOnly s t ∧ took t) ∧
    (good → dfield l 0 1 = 1 → s.readVA 8 none a0 64 = .ok (r, nl) → recordOk r = true → s.dieUp a1 = true →
      j < 4096 → (s.taskAt a1 j).st = .free → (∀ i, i < j → (s.taskAt a1 i).st ≠ .free) →
      ∃ t, exec (.launchArm q) s = .next t ∧ UnitOnly s t ∧ took t ∧
        ∀ i, t.taskAt a1 i = if i = j then recordTask r (s.taskAt a1 j).gen none else s.taskAt a1 i) ∧
    (good → dfield l 0 1 = 2 → ∃ t, exec (.launchTdec q) s = .next t ∧ UnitOnly s t ∧ took t ∧
      (t.die (dfield l 8 4 / 2 ^ 12 % 8)).decs = (s.die (dfield l 8 4 / 2 ^ 12 % 8)).decs ++
        [{ src := 2 ^ 15 + q.toNat, id := dfield l 8 4, low := false, early := decide (a1 / 2 ^ 32 % 2 = 1)
           n := a1 % 2 ^ 16 }]) ∧
    (good → dfield l 0 1 = 3 → (s.stage v).limit ≠ 0 → (tget [] cq (s.stage v).queues).length < 256 →
      ∃ t, exec (.launchPost q) s = .next t ∧ UnitOnly s t ∧ took t ∧
        tget [] cq (t.stage v).queues = tget [] cq (s.stage v).queues ++ [(dfield l 8 4, s.clk)]) ∧
    (good → dfield l 0 1 = 4 → ∃ t u, exec (.launchAbort q) s = .next t ∧ took t ∧ t = { u with queues := t.queues } ∧
      Aborts { s with tlb := u.tlb } u (dfield l 8 4))) ∧
  (∀ (s : State) (rd xq xa : XReg) (idx e : Nat) (p : PeerPacket),
    let dst : BitVec 12 := BitVec.ofNat 12 (s.rx xq).toNat
    let n : BitVec 6 := BitVec.ofNat 6 ((s.rx xq).toNat / 2 ^ 12)
    let z := s.flush
    let l := z.block64At s.myCore (s.rx xa)
    let x := s.queue (64 + p.q.toNat)
    let va := x.base + 64 * (x.wp.toNat % x.size)
    let key := pteByte e va
    let covered := ∃ i, i < 256 ∧ aclCovers (tget 0 i s.acl) p.src p.q (dfield p.packet 0 1) = true
    let arrives := s.peers[idx]? = some p ∧ p.src = s.ownMod ∧
      ∀ y ∈ s.peers.take idx, y.src ≠ p.src
    let set : State → LaunchQ → Prop := fun t z => ∀ k, t.queue k = if k = 64 + p.q.toNat then z else s.queue k
    (z.blockFault (s.rx xa) = none → NoAcquire s → dst = s.ownMod → ∃ t, exec (.qpush rd xq xa) s = .next t ∧ AwaitsX z t rd ∧
      t = { z with ctxs := t.ctxs, peers := s.peers ++ [{ key := s.iss.key, xd := rd, src := s.ownMod, q := n, packet := l }] }) ∧
    (z.blockFault (s.rx xa) = none → NoAcquire s → dst ≠ s.ownMod → s.reachable dst = true →
      ∃ t, exec (.qpush rd xq xa) s = .next t ∧ AwaitsX z t rd ∧ t = { z with
        ctxs := t.ctxs, out := s.out ++ [{ dst := dst, msg := .peer s.ownMod s.iss.key rd n l, send := none }] }) ∧
    (z.blockFault (s.rx xa) = none → NoAcquire s → dst ≠ s.ownMod → s.reachable dst = false →
      ∃ t, exec (.qpush rd xq xa) s = .next t ∧ OnlyCtx z t s.iss.key ∧ t.me = { z.me with
        replies := s.me.replies ++ [(rd, 3)], xwait := z.me.xwait ++ if rd = 0 then [] else [rd] }) ∧
    (arrives → ¬ covered → ∃ t, exec (.peerPacketArrival idx) s = .next t ∧ Replied s t p.key p.xd 1 ∧
      set t { x with errc := min (x.errc + 1) 0xFFFF } ∧ t.dram = s.dram ∧ t.peers = s.peers.eraseIdx idx) ∧
    (arrives → covered → 1 < x.st → ∃ t, exec (.peerPacketArrival idx) s = .next t ∧ Replied s t p.key p.xd 2 ∧
      set t x ∧ t.dram = s.dram ∧ t.peers = s.peers.eraseIdx idx) ∧
    (arrives → covered → x.st ≤ 1 → (x.wp + 1 - x.rp).toNat ≤ x.size → p.packet.length = 64 → x.base % 64 = 0 →
      s.writeFault 8 va 64 = none → s.pte 8 va = some e → tget false (key / 256) s.dram.dead = false → s.blkLost (key / 256) = false →
      s.pageMig 8 (va / 2 ^ 21) = false → s.migHeld = [] →
      ∃ t, exec (.peerPacketArrival idx) s = .next t ∧ Replied s t p.key p.xd 0 ∧ set t { x with wp := x.wp + 1 } ∧
        t.spad = s.spad ∧ t.peers = s.peers.eraseIdx idx ∧ ∀ j, tget 0 j t.dram.bytes =
          if key ≤ j ∧ j < key + 64 then p.packet.getD (j - key) 0 else tget 0 j s.dram.bytes) ∧
    (∀ code a, arrives → covered → x.st ≤ 1 → s.writeFault 8 va 64 = some (code, a) →
      ∃ t, exec (.peerPacketArrival idx) s = .next t ∧ Replied s t p.key p.xd 1 ∧
        set t { x with errc := min (x.errc + 1) 0xFFFF } ∧ t.dram = s.dram ∧ t.peers = s.peers.eraseIdx idx ∧
        Raised s t 16 (64 + p.q.toNat) (a % 2 ^ 32)) ∧
    (arrives → covered → x.st ≤ 1 → s.writeFault 8 va 64 = none → s.pageMig 8 (va / 2 ^ 21) = true → s.migHeld = [] →
      ∃ t, exec (.peerPacketArrival idx) s = .next t ∧ t.migHeld = [⟨.peer p.src, va / 2 ^ 21⟩] ∧
        t = { s with migHeld := t.migHeld, migOpen := t.migOpen } ∧ va / 2 ^ 21 ∈ t.migOpen))

/-- MBPOST, VERGET and VERPUT complete in every state: the request sets out and the register waits. At Clasp a post joins
its queue, is dropped where the queue holds 256 tags, and answers 2 where the stage has no configuration; VERGET gives a tag
the current version, or answers 2^64 - 1 where 256 tags are in flight; VERPUT.rel takes its user away, and of the last user
frees a HELD version, while a CURRENT one stands; VERPUT.alloc takes the lowest FREE version; VERPUT.pub makes an ALLOC
version current (R256, R284, R285). -/
def Obligations.ClaspRequests : Prop :=
  ∀ (s : State) (rd xt : XReg) (stage : BitVec 3) (q : ClaspQ) (idx n : Nat) (r : ClaspReq) (tag : Nat),
    let sends : Instr → ClaspOp → Prop := fun i op => ∃ t, exec i s = .next t ∧ AwaitsX s t rd ∧
      t = { s with ctxs := t.ctxs, claspReqs := s.claspReqs ++ [{ key := s.iss.key, xd := rd, stage := stage, op := op }] }
    let x := s.stage r.stage.toNat
    let k := claspQNum q
    let mine := s.claspReqs[idx]? = some r ∧ ∀ y ∈ s.claspReqs.take idx, r.samePost y = false
    let does : ClaspStage → Word → Prop := fun y v => ∃ t, exec (.claspRequestArrival idx) s = .next t ∧
      t = { s with ctxs := t.ctxs, claspReqs := s.claspReqs.eraseIdx idx, clasp := t.clasp } ∧
      Replied s t r.key r.xd v ∧ ∀ i, t.stage i = if i = r.stage.toNat then y else s.stage i
    let none_ := BitVec.allOnes 64
    let users := tget 0 n x.users
    sends (.mbpost rd xt stage q) (.post q ((s.rx xt).toNat % 2 ^ 32)) ∧
    sends (.verget rd xt stage) (.verget ((s.rx xt).toNat % 2 ^ 32)) ∧
    sends (.verputRel rd xt stage) (.rel ((s.rx xt).toNat % 2 ^ 32)) ∧
    sends (.verputPub rd xt stage) (.pub ((s.rx xt).toNat % 8)) ∧ sends (.verputAlloc rd stage) .alloc ∧
    (mine → r.op = .post q tag →
      (x.limit = 0 → does x 2) ∧
      (x.limit ≠ 0 → 256 ≤ (tget [] k x.queues).length → does { x with overflow := true } 1) ∧
      (x.limit ≠ 0 → (tget [] k x.queues).length < 256 →
        does { x with queues := tmod [] k (fun l => l ++ [(tag, s.clk)]) x.queues } 0)) ∧
    (mine → r.op = .verget tag →
      (x.version tag = some n → does x (BitVec.ofNat 64 n)) ∧
      (x.version tag = none → x.inflight.length < 256 → does { x with
        inflight := x.inflight ++ [(tag, x.curv)], users := tput 0 x.curv (tget 0 x.curv x.users + 1) x.users }
        (BitVec.ofNat 64 x.curv)) ∧
      (x.version tag = none → 256 ≤ x.inflight.length → does x none_)) ∧
    (mine → r.op = .rel tag →
      (x.version tag = none → does x none_) ∧
      (x.version tag = some n → 1 < users → does { x with
        inflight := x.inflight.erase (tag, n), users := tput 0 n (users - 1) x.users } (BitVec.ofNat 64 n)) ∧
      (x.version tag = some n → users = 1 → tget VerState.free n x.vers = .held → does { x with
        inflight := x.inflight.erase (tag, n), users := tput 0 n 0 x.users, vers := tput .free n .free x.vers }
        (BitVec.ofNat 64 n)) ∧
      (x.version tag = some n → users = 1 → tget VerState.free n x.vers ≠ .held → does { x with
        inflight := x.inflight.erase (tag, n), users := tput 0 n 0 x.users } (BitVec.ofNat 64 n))) ∧
    (mine → r.op = .alloc →
      (n < 8 → tget VerState.free n x.vers = .free → (∀ i, i < n → tget VerState.free i x.vers ≠ .free) →
        does { x with vers := tput .free n .alloc x.vers } (BitVec.ofNat 64 n)) ∧
      ((∀ i, i < 8 → tget VerState.free i x.vers ≠ .free) → does x none_)) ∧
    (mine → r.op = .pub n →
      (tget VerState.free n x.vers ≠ .alloc → does x none_) ∧
      (tget VerState.free n x.vers = .alloc → does { x with
        vers := tput .free x.curv (if 0 < tget 0 x.curv x.users then .held else .free) (tput .free n .current x.vers)
        curv := n } (BitVec.ofNat 64 x.curv)))

/-- An evaluation of Clasp on its clk takes at most one choice: the chosen queue's oldest tag is armed in the lowest free
slot of the stage's die from the queue's record with its TAG replaced, or the stage is held where the record cannot be used;
with no choice, or no free slot, nothing changes but the clk of the evaluation. A write of a configuration that keeps the
limits stands and ends a hold; another one changes nothing and raises an event (R281 to R283). The numbers of the events
(log 33), the limits judged at each write, and the one move in which a stage is evaluated (log 36) are the model's choice.
-/
def Obligations.ClaspEvaluation : Prop :=
  ∀ (s : State) (stage : BitVec 3) (w : BitVec 5) (val : Word) (q tag clk j : Nat) (r : List (Nat × Nat)) (l : List Byte),
    let v := stage.toNat
    let x := s.stage v
    let y := { x with cfg := tput 0 w.toNat val x.cfg }
    let runs := s.clk % 8 = 0 ∧ x.insts < x.limit ∧ (∃ i, i < 5 ∧ tget [] i x.queues ≠ []) ∧ x.held = false ∧ x.last ≠ some s.clk
    let choice := x.choose (tget ({} : LocketStage) v s.locket).entries.length s.clk
    let set : State → ClaspStage → Prop := fun t z => ∀ i, t.stage i = if i = v then z else s.stage i
    (runs → choice = none → ∃ t, exec (.claspEvaluate stage) s = .next t ∧ UnitOnly s t ∧ set t { x with last := some s.clk }) ∧
    (runs → choice = some q → tget [] q x.queues = (tag, clk) :: r → s.template x q tag = some l →
      s.dieUp x.tdie = true → j < 4096 → (s.taskAt x.tdie j).st = .free → (∀ i, i < j → (s.taskAt x.tdie i).st ≠ .free) →
      ∃ t, exec (.claspEvaluate stage) s = .next t ∧ UnitOnly s t ∧
        set t { x with last := some s.clk, queues := tput [] q r x.queues, insts := x.insts + 1 } ∧
        ∀ i, t.taskAt x.tdie i =
          if i = j then recordTask l (s.taskAt x.tdie j).gen (some stage) else s.taskAt x.tdie i) ∧
    (runs → choice = some q → tget [] q x.queues = (tag, clk) :: r → s.template x q tag = none →
      ∃ t, exec (.claspEvaluate stage) s = .next t ∧ UnitOnly s t ∧ set t { x with last := some s.clk, held := true } ∧
        Raised s t 6 v q) ∧
    (runs → choice = some q → tget [] q x.queues = (tag, clk) :: r → s.template x q tag = some l →
      (∀ i, i < 4096 → (s.taskAt x.tdie i).st ≠ .free) → ∃ t, exec (.claspEvaluate stage) s = .next t ∧ UnitOnly s t ∧
        set t { x with last := some s.clk } ∧ t.dies = s.dies) ∧
    (y.configOk = true → ∃ t, exec (.claspConfigWrite stage w val) s = .next t ∧ t = { s with clasp := t.clasp } ∧
      set t { y with held := false }) ∧
    (y.configOk = false → ∃ t, exec (.claspConfigWrite stage w val) s = .next t ∧
      t = { s with events := t.events } ∧ Raised s t 5 v w.toNat)

/-! ## Tensor channels and collectives (spec/14) -/

/-- CHSEND completes where its checks find no fault and the window is open: it takes a slot of the window and the payload is
put in order, from global memory with a partial release. CHWIN completes where its checks find no fault, and grants slots to
the sender, or is a channel error where the module cannot be reached; a count of zero grants nothing. Both take the
protection trap where the channel has no such end on this core, CHSEND also where it is broken, and the operand-format trap
where the length or the address is none of the channel's, or the count exceeds the slots that are not granted. CHSTAT reads
the two ends, and .err the error word, which .clr clears (R290 to R297). The number of the event (log 33), that CHSTAT.err
looks at its end when it issues (log 36) and which modules can be reached (log 15) are the model's choice. -/
def Obligations.ChannelInstructions : Prop :=
  ∀ (s : State) (rd rs xt xa xl : XReg) (ch : BitVec 8) (spad clr : Bool) (n : BitVec 24),
    let e := s.chEnd ch
    let cnt := (s.rx rs + BitVec.ofNat 64 n.toNat).toNat
    let len := (s.rx xl).toNat
    let err := tget (0, 0) ch.toNat s.endErr
    let grant := LinkMsg.grant s.ownMod ch e.peerCh cnt
    let ends : State → ChanEnd → Prop := fun t y => ∀ c, t.chEnd c = if c = ch then y else s.chEnd c
    let bit : Bool → Nat := fun b => if b then 1 else 0
    (s.chsendFault spad ch (s.rx xa) (s.rx xl) = none → e.win ≠ 0 → ∃ t, exec (.chsend spad xt xa xl ch) s = .next t ∧
      KeepsData s t ∧ t.cores = s.cores ∧ t.starts = s.starts + 1 ∧
      t.sends = s.sends ++ [{ id := s.starts, key := s.iss.key, ch := ch, q := e.seq, tag := (s.rx xt).setWidth 32
                              spad := spad, addr := (s.rx xa).toNat, len := (s.rx xl).toNat, data := none, held := false }] ∧
      ends t { e with win := e.win - 1, seq := e.seq + 1, pend := e.pend + 1 } ∧ (spad = true → t.ctxs = s.ctxs) ∧
      (spad = false → ∃ r, t.me.releases = s.me.releases ++ [r] ∧ r.kind = .chsend s.starts ∧
        r.ranges = [((s.rx xa).toNat, (s.rx xl).toNat)])) ∧
    (e.role ≠ 1 ∨ e.core ≠ s.myCore ∨ e.broken = true → TrapsAtIssue (.chsend spad xt xa xl ch) s 8 0 0) ∧
    (e.role = 1 → e.core = s.myCore → e.broken = false → len = 0 ∨ e.slotb < len ∨ len % 16 ≠ 0 ∨
      (spad = false ∧ (s.rx xa).toNat % 16 ≠ 0) → TrapsAtIssue (.chsend spad xt xa xl ch) s 10 0 0) ∧
    (e.role ≠ 2 ∨ e.core ≠ s.myCore → TrapsAtIssue (.chwin rs ch n) s 8 0 0) ∧
    (e.role = 2 → e.core = s.myCore → e.ns < e.outst + cnt → TrapsAtIssue (.chwin rs ch n) s 10 0 0) ∧
    (s.chwinFault ch cnt = none → cnt = 0 → ∃ t, exec (.chwin rs ch n) s = .next t ∧ t = { s with ends := t.ends } ∧
      ends t e) ∧
    (s.chwinFault ch cnt = none → cnt ≠ 0 → e.peerMod = s.ownMod → ∃ t, exec (.chwin rs ch n) s = .next t ∧
      t = { s with ends := t.ends, inbox := s.inbox ++ [grant] } ∧ ends t { e with outst := e.outst + cnt }) ∧
    (s.chwinFault ch cnt = none → cnt ≠ 0 → e.peerMod ≠ s.ownMod → s.reachable e.peerMod = true →
      ∃ t, exec (.chwin rs ch n) s = .next t ∧ ends t { e with outst := e.outst + cnt } ∧
        t = { s with ends := t.ends, out := s.out ++ [{ dst := e.peerMod, msg := grant, send := none }] }) ∧
    (s.chwinFault ch cnt = none → cnt ≠ 0 → e.peerMod ≠ s.ownMod → s.reachable e.peerMod = false →
      ∃ t, exec (.chwin rs ch n) s = .next t ∧ ends t { e with outst := e.outst + cnt } ∧ UnitOnly s t ∧
        tget (0, 0) ch.toNat t.endErr = (1, min (err.2 + 1) 0xFFFF) ∧ Raised s t 11 ch.toNat 1) ∧
    ToX (.chstatSnd rd ch) s rd (if e.role = 1 ∧ e.core = s.myCore then BitVec.ofNat 64 (e.win % 128 +
      256 * (e.pend % 128) + 32768 * bit (decide (err ≠ (0, 0))) + 65536 * e.seq.toNat) else 0) ∧
    ToX (.chstatRcv rd ch) s rd (if e.role = 2 ∧ e.core = s.myCore then BitVec.ofNat 64 (e.outst % 128 + 256 * e.next +
      16384 * bit ((match s.nextPayload ch with | some (true, _) => true | _ => false) && e.fill.isNone &&
        decide ((s.handle e.core e.handle).st ≠ .free)) +
      32768 * bit (decide (err ≠ (0, 0))) + 65536 * e.rseq.toNat) else 0) ∧
    (∃ t, exec (.chstatErr rd ch clr) s = .next t ∧ t = { s with ctxs := t.ctxs, endErr := t.endErr } ∧
      (∀ k, k ≠ s.iss.key → t.ctx k = s.ctx k) ∧ t.me = { s.me with
        replies := s.me.replies ++ [(rd, BitVec.ofNat 64 (err.1 + 16 * err.2))]
        xwait := s.me.xwait ++ if rd = 0 then [] else [rd] } ∧
      ∀ c, tget (0, 0) c t.endErr = if clr ∧ c = ch.toNat then (0, 0) else tget (0, 0) c s.endErr)

/-- The source of the next payload is read, whole, from a scratchpad or from global memory, and the payload sets out; a
grant from the record's peer opens the window; the payload that follows those received fills the next slot once its handle
is FREE, row by row, or gives RESULT 6 with code 4 where it is longer than the slot, and then POST 1 posts its tag to Clasp,
which drops it in a queue of 256, and POST 2 sends a decrement of TASK by 1; a later payload waits; a message from another
peer is discarded with code 2; a lost flit holds the CHSEND with code 3; a write of a record resets its end (R291 to R297).
R294 says the discard with code 2 of a payload; that a grant from another peer is discarded with it too, on which R295 is
silent, that a payload is counted as received when the action that fills its slot ends, and the form of a held CHSEND, is
the model's choice (log 37). -/
def Obligations.ChannelEvents : Prop :=
  ∀ (s : State) (ch sch : BitVec 8) (m : ChSend) (src : BitVec 12) (n : Nat) (l data : List Byte) (q tag : BitVec 32)
    (o : OutMsg) (w : BitVec 2) (val : Word) (nl : Bool),
    let e := s.chEnd ch
    let err := tget (0, 0) ch.toNat s.endErr
    let erred : State → Nat → Prop := fun t code => tget (0, 0) ch.toNat t.endErr = (code, min (err.2 + 1) 0xFFFF)
    let ends : State → ChanEnd → Prop := fun t y => ∀ c, t.chEnd c = if c = ch then y else s.chEnd c
    let x := s.handle e.core e.handle
    let pay := LinkMsg.payload src sch ch q tag data
    let grant := LinkMsg.grant src sch ch n
    let slot := { e with outst := e.outst - 1, next := (e.next + 1) % e.ns, rseq := e.rseq + 1, fill := none }
    let v := val &&& recordMask w.toNat
    let mine := e.role = 2 ∧ e.peerMod = src ∧ e.peerCh = sch
    let sent := s.sends.find? (fun m => m.ch == ch) = some m ∧ m.held = false ∧ m.data = none ∧
      ∀ r ∈ (s.ctx m.key).releases, r.kind ≠ .chsend m.id
    let leaves : State → LinkMsg → Prop := fun t p => KeepsData s t ∧ ends t { e with pend := e.pend - 1 } ∧
      (∀ y ∈ t.sends, y.id ≠ m.id) ∧ t.inbox = (if e.peerMod = s.ownMod then s.inbox ++ [p] else s.inbox) ∧
      (e.peerMod ≠ s.ownMod → ∃ y, y.dst = e.peerMod ∧ y.msg = p ∧ t.out = s.out ++ [y])
    let y := s.stage e.vstage
    let room := (tget [] e.queue y.queues).length < 256
    let stages : State → ClaspStage → Prop := fun t z => ∀ i, t.stage i = if i = e.vstage then z else s.stage i
    let posted : State → Prop := fun t =>
      (e.post = 1 → e.queue < 5 → y.limit ≠ 0 →
        stages t (if room then { y with queues := tmod [] e.queue (fun l => l ++ [(tag.toNat, s.clk)]) y.queues }
          else { y with overflow := true })) ∧
      (e.post = 2 → OnlyDie { s with ends := t.ends, cores := t.cores, spad := t.spad, ctxs := t.ctxs, inbox := t.inbox
                                     events := t.events, endErr := t.endErr } t (e.task / 2 ^ 12 % 8) ∧
        t.die (e.task / 2 ^ 12 % 8) = { s.die (e.task / 2 ^ 12 % 8) with decs := (s.die (e.task / 2 ^ 12 % 8)).decs ++
          [{ src := 2 ^ 14 + 8, id := e.task, low := false, early := false, n := 1 }] }) ∧
      (e.post ≠ 1 → t.clasp = s.clasp) ∧ (e.post ≠ 2 → t.dies = s.dies)
    let takes := e.fill = none ∧ x.st = .free ∧ s.issueOver e.core = true ∧ s.dieUp (coreDie e.core) = true
    (sent → m.spad = true → s.rowsData (keyCore m.key) (m.addr / 256) (payloadRows m.len) = some l →
      s.reachable e.peerMod = true → ∃ t, exec (.chsendSourceRead ch) s = .next t ∧
        leaves t (.payload s.ownMod m.ch e.peerCh m.q m.tag (l.take m.len))) ∧
    (sent → m.spad = false → s.readVA (unitOf m.key) (some m.key) m.addr m.len = .ok (l, nl) →
      s.reachable e.peerMod = true → ∃ t, exec (.chsendSourceRead ch) s = .next t ∧
        leaves t (.payload s.ownMod m.ch e.peerCh m.q m.tag l)) ∧
    (s.nextGrant ch = some grant → e.role = 1 → e.peerMod = src → e.peerCh = sch →
      ∃ t, exec (.windowGrantArrival ch) s = .next t ∧ UnitOnly s t ∧ t.inbox = s.inbox.erase grant ∧
        ends t { e with win := e.win + n }) ∧
    (s.nextGrant ch = some grant → e.role ≠ 1 ∨ e.peerMod ≠ src ∨ e.peerCh ≠ sch →
      ∃ t, exec (.windowGrantArrival ch) s = .next t ∧ UnitOnly s t ∧ t.inbox = s.inbox.erase grant ∧ t.ends = s.ends ∧
        erred t 2) ∧
    (mine → s.inbox = [pay] → q ≠ e.rseq → exec (.channelReceipt ch) s = .refused .notEnabled) ∧
    (mine → s.inbox = [pay] → q = e.rseq → s.nextPayload ch = some (true, pay)) ∧
    (s.nextPayload ch = some (true, pay) → takes → data.length ≤ 256 * x.nrows →
      (x.brow + payloadRows data.length) * 256 ≤ s.extent e.core →
      ∃ t, exec (.channelReceipt ch) s = .next t ∧ t.inbox = s.inbox.erase pay ∧ ends t slot ∧ t.dram = s.dram ∧ posted t ∧
        t.handle e.core e.handle = { x with st := .full, status := handleStatus 0 false 9 data.length } ∧
        ∀ i b, i < payloadRows data.length → b < 256 →
          tget 0 (s.spadAddr e.core (256 * (x.brow + i)) + b) t.spad.bytes = data.getD (256 * i + b) 0) ∧
    (s.nextPayload ch = some (true, pay) → takes → 256 * x.nrows < data.length →
      ∃ t, exec (.channelReceipt ch) s = .next t ∧ t.inbox = s.inbox.erase pay ∧ ends t slot ∧ posted t ∧ t.spad = s.spad ∧
        t.dram = s.dram ∧ t.handle e.core e.handle = { x with st := .full, status := handleStatus 6 false 9 0 } ∧
        erred t 4) ∧
    (s.nextPayload ch = some (true, pay) → e.fill = none → x.st ≠ .free →
      exec (.channelReceipt ch) s = .refused .notEnabled) ∧
    (s.nextPayload ch = some (false, pay) → ¬ mine ∧
      ∃ t, exec (.channelReceipt ch) s = .next t ∧ UnitOnly s t ∧ t.inbox = s.inbox.erase pay ∧ t.ends = s.ends ∧
        erred t 2) ∧
    (s.out.find? (fun o => match o.send with | some m => m.ch == ch | none => false) = some o → o.send = some m →
      ∃ t f, exec (.linkFlitLoss ch) s = .next t ∧ KeepsData s t ∧ t.out = s.out.erase o ∧ erred t 3 ∧
        (t.ctx m.key).pend = (s.ctx m.key).pend ++ [f] ∧ f.info.code = 15 ∧ f.srce = 9 ∧
        f.held = some (.chsend m.ch m.q.toNat) ∧ ∃ y ∈ t.sends, y = { m with held := true }) ∧
    (∃ t, exec (.channelRecordWrite ch w val) s = .next t ∧ t = { s with ends := t.ends } ∧ ends t
      { w0 := if w = 0 then v else e.w0, w1 := if w = 1 then v else e.w1, w2 := if w = 2 then v else e.w2 })

/-- COLL completes where its descriptor has no fault and no acquire is awaited (R186): with a free slot and fewer than 64
collectives in flight it takes the lowest one with a partial release and tells the next member of its ring, and otherwise
answers 2^64 - 1 or 2^64 - 2; where the Bangle port toward that member is not up the message is not sent, and the collective
is noted to end with code 4, as the members that can be reached are told (R289, R304). CWAIT reads the status of a slot and
frees a slot that has ended. A COLL whose SEQ repeats ends with code 2, and so does the next collective of the ring that has
not begun; a collective starts once every member's descriptor has arrived and agrees, SRC being read and sent round the
ring, and ends with a code of R304 where it cannot; it completes with STATE 2, EVT, and DST written as the operation gives
it once every contribution is here, or ends with the code that another member sent; a slot ends on the clk of an evaluation
of its context before that only (R99); of two members each element of DST is the sum of their multiples of 2^(E - 96), each
truncated and held to 2^115 - 1, rounded once, or their integer sum saturated, or, of an all-gather, a copy from the member
whose share holds it, a reduce-scatter writing the own share only, and the status word tells INX, SAT, OVF and NAN (R301,
R302); a write of DST to a page in a migration
window is held (R208); CWAIT of an ended slot acquires the ranges that its COLL released (R298 to R304). That COLL reads its
descriptor after the context's earlier fused accesses (log 11), the contributions that travel round the ring, the collective
that a repeated SEQ ends (log 42), and that a message which a Bangle port loses is an unreachable one (log 32) are the
model's choice. -/
def Obligations.Collectives : Prop :=
  ∀ (s : State) (rd base xc : XReg) (off : BitVec 32) (ring : BitVec 2) (k g : CtxKey) (d b : CollDesc)
    (i h e code : Nat) (la lb : List Byte),
    let ea := s.rx base + off.signExtend 64
    let z := s.flush
    let l := z.block64At s.myCore ea
    let c := (s.rx xc).toNat
    let calm := (s.core (keyCore k)).evaled ≠ some (s.clk, keyCtx k)
    let x := s.ring ring.toNat
    let u := unitOf k
    let key := pteByte e d.dst
    let mine := s.ringSlots ring.toNat = [(k, i, d)]
    let sent := mine ∧ (∀ r ∈ (s.ctx k).releases, r.kind ≠ .coll i) ∧ ((s.ctx k).coll i).begun = false
    let slots : State → CtxKey → Nat → CollSlot → Prop := fun t k i y =>
      ∀ j, (t.ctx k).coll j = if j = i then y else (s.ctx k).coll j
    let x1 : State → State → Word → Prop := fun u t v => ∀ q, t.me.xr q = if q = rd ∧ q ≠ 0 then v else u.me.xr q
    let ended : Nat → CollSlot := fun code =>
      { (s.ctx k).coll i with st := 3, begun := false, status := BitVec.ofNat 64 (3 + 256 * code + 65536 * d.seq.toNat) }
    let ends : State → Nat → Prop := fun t code => slots t k i (ended code) ∧ (t.ctx k).evt = true ∧
      (t.ring ring.toNat).next = x.next + 1 ∧ t.dram = s.dram ∧ t.spad = s.spad
    let gathered := ∀ m, m < x.n → m ≠ x.rank → ∃ y ∈ x.members, y.1 = m ∧ y.2.seq = x.next
    let done := mine ∧ ((s.ctx k).coll i).begun = true ∧ (∀ e ∈ x.errs, e.1 ≠ x.next) ∧
      (∀ m, m < x.n → ∃ y ∈ x.data, y.1 = m ∧ y.2.1 = d.seq) ∧ ∀ w ∈ d.writes x, s.writeFault u (d.dst + w.1) w.2 = none
    let two := x.n = 2 ∧ la.length = d.len ∧ lb.length = d.len ∧ (x.data = [(0, d.seq, la), (1, d.seq, lb)] ∨
      x.data = [(1, d.seq, lb), (0, d.seq, la)])
    let bytes := collBytes d.ty
    let fm := d.ty.fmt
    let int := d.ty = .i32 ∨ d.ty = .i64
    let A : Nat → Nat := fun i => dfield la (i * bytes) bytes
    let B : Nat → Nat := fun i => dfield lb (i * bytes) bytes
    let grid : FVal → Int × Bool × Bool := fun v => match v with
      | .fin neg m ex =>
        let sh := ex - (d.e - 96)
        let q := if 0 ≤ sh then m * 2 ^ sh.toNat else m / 2 ^ (-sh).toNat
        let c : Nat := min q (2 ^ 115 - 1)
        (if neg then -(c : Int) else c, decide (sh < 0 ∧ m % 2 ^ (-sh).toNat ≠ 0), decide (2 ^ 115 - 1 < q))
      | _ => (0, false, false)
    let top : Int := 2 ^ (8 * bytes - 1)
    let sum : Nat → Nat × Bool × Bool := fun i =>
      if int then
        let v := toI (8 * bytes) (A i) + toI (8 * bytes) (B i)
        (ofI (8 * bytes) (max (-top) (min (top - 1) v)), decide (v < -top ∨ top ≤ v), false)
      else match fm.decode (A i), fm.decode (B i) with
        | .fin m n p, .fin m' n' p' =>
          let r := fm.cvt .rne 0 (fvOfInt ((grid (.fin m n p)).1 + (grid (.fin m' n' p')).1) (d.e - 96))
          (r.1, decide (r.2 / 2 % 2 = 1), false)
        | .inf g, .fin .. => (fm.signed g fm.infMag, false, false)
        | .fin .., .inf g => (fm.signed g fm.infMag, false, false)
        | .inf g, .inf g' => if g = g' then (fm.signed g fm.infMag, false, false) else (fm.qnan, false, true)
        | _, _ => (fm.qnan, false, true)
    let some_ : (Nat → Bool) → Nat := fun f => if (List.range d.count).any f then 1 else 0
    let parts : Nat → List (Int × Bool × Bool) := fun i =>
      if int then [] else [grid (fm.decode (A i)), grid (fm.decode (B i))]
    let owner : Nat → Nat := fun j =>
      if d.shard then j / 256 * x.mul % 2 else if j / bytes < d.count / 2 then 0 else 1
    (z.collFault ea = none → NoAcquire s → collDesc l = some d → i < 4 → (s.me.coll i).st = 0 →
      (∀ j, j < i → (s.me.coll j).st ≠ 0) → s.collsInFlight < 64 →
      ∃ t r, exec (.coll rd base off) s = .next t ∧ x1 z t (BitVec.ofNat 64 i) ∧
        slots t s.iss.key i { st := 1, desc := some d, ranges := d.ranges (s.ring d.ring.toNat) } ∧
        t.me.releases = s.me.releases ++ [r] ∧ r.kind = .coll i ∧ r.ranges = d.ranges (s.ring d.ring.toNat) ∧
        t.dram = s.dram ∧ t.spad = z.spad ∧ t.cores = s.cores ∧
        let y := s.ring d.ring.toNat
        let down := ∃ e ∈ y.sides.take 1, s.torus.port e.2 ≠ 2
        (y.n = 1 → t.out = s.out ∧ t.rings = s.rings) ∧
        (y.n ≠ 1 → ¬ down → t.rings = s.rings ∧ t.out = s.out ++ (y.sides.take 1).map fun e =>
          { dst := e.1, msg := .member d.ring y.rank d, send := none, via := some e.2 }) ∧
        (y.n ≠ 1 → down → seqPast y.next d.seq = false → (∀ e ∈ y.errs, e.1 ≠ d.seq) →
          t.ring d.ring.toNat = { y with errs := y.errs ++ [(d.seq, 4)] } ∧
          t.out = s.out ++ (y.sides.filter fun e => s.torus.port e.2 == 2).map fun e =>
            { dst := e.1, msg := .collErr d.ring d.seq 4, send := none, via := some e.2 })) ∧
    (z.collFault ea = none → NoAcquire s → (∀ j, j < 4 → (s.me.coll j).st ≠ 0) →
      ∃ t, exec (.coll rd base off) s = .next t ∧ WritesX z t rd (BitVec.allOnes 64)) ∧
    (z.collFault ea = none → NoAcquire s → (∃ j, j < 4 ∧ (s.me.coll j).st = 0) → 64 ≤ s.collsInFlight →
      ∃ t, exec (.coll rd base off) s = .next t ∧ WritesX z t rd (BitVec.ofNat 64 (2 ^ 64 - 2))) ∧
    (c < 4 → (s.me.coll c).st < 2 → ToX (.cwait rd xc) s rd (s.me.coll c).word) ∧
    (c < 4 → 2 ≤ (s.me.coll c).st → ∃ t, exec (.cwait rd xc) s = .next t ∧ x1 s t (s.me.coll c).word ∧
      slots t s.iss.key c {} ∧ t.dram = s.dram ∧ t.spad = s.spad ∧ t.cores = s.cores ∧
      ((s.me.coll c).ranges ≠ [] → ∀ j, (s.me.probe.slot j).c = false →
        inRanges (s.me.coll c).ranges (s.me.probe.slot j).tag 256 = true → (t.me.probe.slot j).st = .invalid)) ∧
    (4 ≤ c → TrapsAtIssue (.cwait rd xc) s 10 0 0) ∧
    (sent → calm → seqPast x.next d.seq = true → ∃ t, exec (.collectiveStart ring) s = .next t ∧
      (∀ j, j ≠ k → t.ctx j = s.ctx j) ∧ (t.ctx k).evt = true ∧ slots t k i (ended 2) ∧
      t.ring ring.toNat = { x with
        errs := (if x.errs.any (fun e => e.1 == x.next) then x.errs else x.errs ++ [(x.next, 2)]) }) ∧
    (s.ringSlots ring.toNat = [(k, i, d), (g, h, b)] → (∀ r ∈ (s.ctx k).releases, r.kind ≠ .coll i) →
      ((s.ctx k).coll i).begun = false → ((s.ctx g).coll h).begun = true → calm → seqPast x.next d.seq = true →
      (∀ e ∈ x.errs, e.1 ≠ x.next + 1) → ∃ t, exec (.collectiveStart ring) s = .next t ∧ (t.ctx k).evt = true ∧
        slots t k i (ended 2) ∧ (∀ j, j ≠ k → t.ctx j = s.ctx j) ∧
        t.ring ring.toNat = { x with errs := x.errs ++ [(x.next + 1, 2)] }) ∧
    (sent → d.seq = x.next → s.collError x k d = none → gathered → s.collMemFault x u d = none →
      ∃ t, exec (.collectiveStart ring) s = .next t ∧ OnlyCtx { s with rings := t.rings, out := t.out } t k ∧
        slots t k i { (s.ctx k).coll i with begun := true } ∧
        t.ring ring.toNat = { x with data := x.data ++ [(x.rank, d.seq, s.collSource x u d)] } ∧
        ∀ bs nl, d.op ≠ 2 → s.readVA u none d.src d.len = .ok (bs, nl) → s.collSource x u d = bs) ∧
    (sent → ¬ calm → (seqPast x.next d.seq = true ∨ (d.seq = x.next ∧ s.collError x k d = some code) ∨
      (d.seq = x.next ∧ s.collError x k d = none ∧ s.collMemFault x u d = some (code, e))) →
      exec (.collectiveStart ring) s = .refused .notEnabled) ∧
    (sent → calm → d.seq = x.next → d.ring = ring → s.collError x k d = some code →
      ∃ t, exec (.collectiveStart ring) s = .next t ∧ ends t code) ∧
    ((∀ e ∈ x.errs, e.1 ≠ x.next) → s.ringUp x = false → s.collError x k d = some 4) ∧
    ((∀ e ∈ x.errs, e.1 ≠ x.next) → s.ringUp x = true → gathered →
      (∃ q y, q < x.n ∧ x.members.find? (fun m => m.1 == q && m.2.seq == x.next) = some y ∧ y.2.agrees d = false) →
      s.collError x k d = some 1) ∧
    (sent → calm → d.seq = x.next → d.ring = ring → s.collError x k d = none → gathered → s.collMemFault x u d = some (code, e) →
      ∃ t f, exec (.collectiveStart ring) s = .next t ∧ ends t 5 ∧ (t.ctx k).pend = (s.ctx k).pend ++ [f] ∧
        f.info.code = code ∧ f.info.eaddr = BitVec.ofNat 64 e) ∧
    (mine → ((s.ctx k).coll i).begun = true → calm → d.ring = ring → x.errs.find? (fun e => e.1 == x.next) = some (x.next, code) →
      ∃ t, exec (.collectiveComplete ring) s = .next t ∧ ends t code) ∧
    (done → (∃ w ∈ d.writes x, ∃ p ∈ pagesOf (d.dst + w.1) w.2, s.pageMig u p = true) → s.migHeld = [] →
      ∃ t, exec (.collectiveComplete ring) s = .next t ∧ t = { s with migHeld := t.migHeld, migOpen := t.migOpen } ∧
        t.migHeld ≠ [] ∧ ∀ w ∈ t.migHeld, w.src = .coll k i ∧ s.pageMig u w.page = true) ∧
    (mine → ((s.ctx k).coll i).begun = true → ¬ calm → x.errs.find? (fun e => e.1 == x.next) = some (x.next, code) →
      exec (.collectiveComplete ring) s = .refused .notEnabled) ∧
    (done → ¬ calm → (∀ w ∈ d.writes x, ∀ p ∈ pagesOf (d.dst + w.1) w.2, s.pageMig u p = false) → s.migHeld = [] →
      exec (.collectiveComplete ring) s = .refused .notEnabled) ∧
    (two → d.op ≠ 2 → int ∨ d.ty = .f32 ∨ d.ty = .bf16 →
      (collData x d).1.length = d.len ∧ (∀ i, i < d.count → dfield (collData x d).1 (i * bytes) bytes = (sum i).1) ∧
      (collData x d).2 = 4 * some_ (fun i => (parts i).any fun p => p.2.1) + 8 * some_ (fun i => (parts i).any fun p => p.2.2) +
        16 * some_ (fun i => (sum i).2.1) + 32 * some_ fun i => (sum i).2.2) ∧
    (two → d.op = 2 → (collData x d).1.length = d.len ∧ (collData x d).2 = 0 ∧
      ∀ j, j < d.len → (collData x d).1.getD j 0 = if owner j = 0 then la.getD j 0 else lb.getD j 0) ∧
    (two → ∀ j, j < d.len → ((∃ w ∈ d.writes x, w.1 ≤ j ∧ j < w.1 + w.2) ↔ (d.op = 1 → owner j = x.rank))) ∧
    (done → calm → (∀ w ∈ d.writes x, ∀ p ∈ pagesOf (d.dst + w.1) w.2, s.pageMig u p = false) → s.migHeld = [] →
      ∃ t flags, exec (.collectiveComplete ring) s = .next t ∧ (t.ctx k).evt = true ∧ t.spad = s.spad ∧
        slots t k i { (s.ctx k).coll i with
          st := 2, begun := false, status := BitVec.ofNat 64 (2 + flags + 65536 * d.seq.toNat) } ∧
        (t.ring ring.toNat).next = x.next + 1 ∧ flags = (collData x d).2 ∧
        (d.len ≤ 256 → d.dst % 256 = 0 → s.pte u d.dst = some e → tget false (key / 256) s.dram.dead = false →
          s.blkLost (key / 256) = false → (collData x d).1.length = d.len → ∀ j, tget 0 j t.dram.bytes =
            if key ≤ j ∧ j < key + d.len ∧ ∃ w ∈ d.writes x, w.1 ≤ j - key ∧ j - key < w.1 + w.2
            then (collData x d).1.getD (j - key) 0 else tget 0 j s.dram.bytes))

/-! ## Expert routing and the torus (spec/14) -/

/-- ROUTE completes where its checks find no fault and no acquire is awaited (R186): the counts are zero, the status is busy
and the job stands at its first reservation. RSTAT reads the context's own counts at once, and asks the IOD for the COUNT of
a local expert, which .clr then clears (R306, R308, R310). That ROUTE reads its rows at issue (log 43), after the context's
earlier fused accesses (log 11), and that RSTAT looks at its unit when it issues (log 36) are the model's choice. -/
def Obligations.RouteInstructions : Prop :=
  ∀ (s : State) (rd base : XReg) (off : BitVec 32) (sel : BitVec 10) (d : Nat),
    let ea := s.rx base + off.signExtend 64
    let z := s.flush
    let j := (z.routeJob s.myCore (z.block64At s.myCore ea)).settle
    let r := s.me.route
    let i := sel.toNat
    let asks : State → Prop := fun t => t = { s with ctxs := t.ctxs, experts := t.experts } ∧
      (∀ k, k ≠ s.iss.key → t.ctx k = s.ctx k) ∧ t.me = { s.me with
        replies := s.me.replies ++ [(rd, BitVec.ofNat 64 (s.expert (i % 256)).count)]
        xwait := s.me.xwait ++ if rd = 0 then [] else [rd] }
    (z.routeFault ea = none → NoAcquire s → ∃ t, exec (.route base off) s = .next t ∧
      OnlyCtx { z with starts := s.starts + 1 } t s.iss.key ∧
      t.me = { z.me with job := some j.1, route := { busy := true, dropped := j.2 } }) ∧
    (i = 0 → ToX (.rstat rd sel) s rd (BitVec.ofNat 64 ((if r.busy then 1 else 0) + (if r.done then 2 else 0) +
      (if r.err then 4 else 0) + 65536 * ((r.first + r.second) % 2048)))) ∧
    (i = 1 → ToX (.rstat rd sel) s rd (BitVec.ofNat 64 r.first)) ∧
    (i = 2 → ToX (.rstat rd sel) s rd (BitVec.ofNat 64 r.second)) ∧
    (i = 3 → ToX (.rstat rd sel) s rd (BitVec.ofNat 64 r.dropped)) ∧
    (i = 16 + d → d < 16 → ToX (.rstat rd sel) s rd (BitVec.ofNat 64 (tget 0 d r.sent))) ∧
    (256 ≤ i → i < 512 → ∃ t, exec (.rstat rd sel) s = .next t ∧ asks t ∧ t.experts = s.experts) ∧
    (512 ≤ i → ∃ t, exec (.rstat rd sel) s = .next t ∧ asks t ∧ ∀ x, t.expert x =
      if x = i % 256 then { s.expert x with count := 0 } else s.expert x)

/-- A reservation on the module's own expert is granted while COUNT is below CAP and EROWS fits, and counts; it is refused
otherwise, and sent where the destination is another module; an unreachable one is refused with ERR. A refused choice
moves the job on; a granted token puts its header into the send list, counts, and sends its entry. An entry that is
written or faults is acknowledged, one whose destination's die is not ready is held, and so is one for a page in a migration
window (R208; log 45); a destination without entries left
is decremented, and its acknowledgement awaited, which the dispatcher gives when it takes the decrement; and once all have
come, the status is done and EVT is set, on the clk of an evaluation of the context before that only. A write of the expert
table resets COUNT (R99, R305 to R309, R360, R381). That an entry is for the die of its destination's task, so that it is
held while that die is not ready, and that an entry of a destination without a task is committed, is the model's reading of
R360 (log 31); when an acknowledgement is given, and in which order the entries and decrements of a ROUTE are taken, is the
model's choice (log 43); and so are the layout of the expert table (log 14), which modules can be reached (log 15), and the
unit that translates an entry (log 25). -/
def Obligations.RouteEvents : Prop :=
  ∀ (s : State) (k : CtxKey) (j : RouteJob) (c idx task : Nat) (e : RouteEntry) (d : BitVec 4) (lx : BitVec 8) (val : Word)
    (b : Bool) (die : BitVec 3) (dm : DecMsg) (dr : List DecMsg) (k2 : CtxKey) (num2 i2 : Nat),
    let n := keyCore k
    let dx := j.place
    let m := j.module dx.1
    let x := s.expert dx.2
    let set : State → RouteJob → Prop := fun t y => t.ctx k = { s.ctx k with job := some y } ∧ ∀ q, q ≠ k → t.ctx q = s.ctx q
    let cnt := tget 0 dx.1 (s.ctx k).route.sent
    let row := s.spadAddr n (256 * (j.lrow + dx.1 * j.lrpd + cnt / 16)) + 16 * (cnt % 16)
    let y := s.expert lx.toNat
    let own := LinkMsg.entry s.ownMod k j.num e.id e.x e.c task e.data
    let va := (s.expert e.x).rbase + 256 * (s.expert e.x).erows * e.c
    let dec : State → Bool → Prop := fun t await => set t { j with
      decd := j.decd ++ [d.toNat], waits := if await then j.waits ++ [d.toNat] else j.waits }
    let ready := j.phase = .ended ∧ d.toNat < j.dests.length ∧ d.toNat ∉ j.decd ∧ ∀ e ∈ j.entries, e.d ≠ d.toNat
    let taskd := j.taskOf d.toNat
    (s.dieUp die.toNat = true → (s.die die.toNat).decs = dm :: dr → dm.ack = some (s.ownMod, k2, num2, i2) →
      ∃ t, exec (.taskDecrementArrival die 0) s = .next t ∧ t.inbox = s.inbox ++ [.decAck k2 num2 i2] ∧
        t.ctxs = s.ctxs ∧ t.dram = s.dram ∧ t.spad = s.spad) ∧
    ((s.ctx k).job = some j →
    (j.phase = .ask → m = s.ownMod → x.count < x.cap → x.erows = j.tr + 1 →
      ∃ t, exec (.routeReservation k) s = .next t ∧ set t { j with phase := .answered (some x.count) } ∧
        ∀ i, t.expert i = if i = dx.2 then { x with count := x.count + 1 } else s.expert i) ∧
    (j.phase = .ask → m = s.ownMod → ¬ (x.count < x.cap ∧ x.erows = j.tr + 1) →
      ∃ t, exec (.routeReservation k) s = .next t ∧ set t { j with phase := .answered none } ∧ t.experts = s.experts) ∧
    (j.phase = .ask → m ≠ s.ownMod → s.reachable m = true →
      ∃ t, exec (.routeReservation k) s = .next t ∧ set t { j with phase := .away } ∧
        t.out = s.out ++ [{ dst := m, msg := .reserve s.ownMod k j.num dx.2 (j.tr + 1), send := none }]) ∧
    (j.phase = .ask → m ≠ s.ownMod → s.reachable m = false →
      ∃ t, exec (.routeReservation k) s = .next t ∧ (t.ctx k).job = some { j with phase := .answered none } ∧
        (t.ctx k).route.err = true) ∧
    (j.phase = .answered none → ∃ t z, exec (.routeReservationAnswer k) s = .next t ∧ OnlyCtx s t k ∧
      (t.ctx k).job = some z ∧ (t.ctx k).regs = (s.ctx k).regs ∧ z.entries = j.entries ∧
      ((j.rank = 0 ∧ z.tok = j.tok ∧ z.rank = 1) ∨ j.tok < z.tok)) ∧
    (j.phase = .answered (some c) → m = s.ownMod → ∃ t z, exec (.routeReservationAnswer k) s = .next t ∧
      (t.ctx k).job = some z ∧ j.tok < z.tok ∧ (t.ctx k).regs = (s.ctx k).regs ∧ t.dram = s.dram ∧
      (∃ y, z.entries = j.entries ++ [y] ∧ y.d = dx.1 ∧ y.x = dx.2 ∧ y.c = c ∧ y.data.take 16 = j.header s.ownMod ∧
        (y.data.drop 16).take 240 = List.replicate 240 0 ∧
        t.inbox = s.inbox ++ [.entry s.ownMod k j.num y.id y.x y.c (j.taskOf dx.1) y.data]) ∧
      tget 0 dx.1 (t.ctx k).route.sent = cnt + 1 ∧
      (t.ctx k).route.first = (s.ctx k).route.first + (if j.rank = 0 then 1 else 0) ∧
      (t.ctx k).route.second = (s.ctx k).route.second + (if j.rank = 0 then 0 else 1) ∧
      ∀ i, tget 0 i t.spad.bytes =
        if row ≤ i ∧ i < row + 16 then (j.header s.ownMod).getD (i - row) 0 else tget 0 i s.spad.bytes) ∧
    (j.entries[idx]? = some e → j.module e.d = s.ownMod → s.inbox.find? (s.entryFrom s.ownMod) = some own →
      s.writeFault 8 va e.data.length ≠ none ∨ (s.migHeld = [] ∧ ∀ p ∈ pagesOf va e.data.length, s.pageMig 8 p = false) →
      ∃ t, exec (.routeEntryCommit k idx) s = .next t ∧ t.spad = s.spad ∧ t.cores = s.cores ∧
        (t.ctx k).job = some { j with entries := j.entries.filter fun f => f.id != e.id } ∧ t.inbox = s.inbox.erase own ∧
        (s.writeFault 8 va e.data.length = none → (t.ctx k).route = (s.ctx k).route) ∧
        (s.writeFault 8 va e.data.length ≠ none → (t.ctx k).route.err = true ∧ t.dram = s.dram)) ∧
    (j.entries[idx]? = some e → j.module e.d = s.ownMod → s.inbox.find? (s.entryFrom s.ownMod) = some own →
      s.writeFault 8 va e.data.length = none → (∃ p ∈ pagesOf va e.data.length, s.pageMig 8 p = true) → s.migHeld = [] →
      ∃ t, exec (.routeEntryCommit k idx) s = .next t ∧ t = { s with migHeld := t.migHeld, migOpen := t.migOpen } ∧
        t.migHeld ≠ [] ∧ ∀ w ∈ t.migHeld, w.src = .entry s.ownMod k j.num e.id ∧ s.pageMig 8 w.page = true) ∧
    (j.entries[idx]? = some e → j.module e.d = s.ownMod → s.inbox = [own] → task ≠ 0 → s.dieUp (task / 2 ^ 12 % 8) = false →
      exec (.routeEntryCommit k idx) s = .refused .notEnabled) ∧
    (ready → taskd = 0 → ∃ t, exec (.routeDecrement k d) s = .next t ∧ dec t false ∧ t = { s with ctxs := t.ctxs }) ∧
    (ready → taskd ≠ 0 → j.module d.toNat = s.ownMod → ∃ t, exec (.routeDecrement k d) s = .next t ∧ dec t true ∧
      t = { s with ctxs := t.ctxs, dies := t.dies } ∧ (t.die (taskd / 2 ^ 12 % 8)).decs =
        (s.die (taskd / 2 ^ 12 % 8)).decs ++ [{ src := 2 ^ 14 + 9, id := taskd, low := false, early := false, n := 1
                                                ack := some (s.ownMod, k, j.num, d.toNat) }]) ∧
    (ready → taskd ≠ 0 → j.module d.toNat ≠ s.ownMod → s.reachable (j.module d.toNat) = true →
      ∃ t, exec (.routeDecrement k d) s = .next t ∧ dec t true ∧ t = { s with ctxs := t.ctxs, out := s.out ++
        [{ dst := j.module d.toNat, msg := .dec s.ownMod k j.num d.toNat taskd, send := none }] }) ∧
    (ready → taskd ≠ 0 → j.module d.toNat ≠ s.ownMod → s.reachable (j.module d.toNat) = false →
      ∃ t, exec (.routeDecrement k d) s = .next t ∧ (t.ctx k).route.err = true ∧ t.dram = s.dram ∧ t.spad = s.spad ∧
        (t.ctx k).job = some { j with decd := j.decd ++ [d.toNat] }) ∧
    (j.phase = .ended → (∀ i, i < j.dests.length → i ∈ j.decd) → (∀ i ∈ j.waits, LinkMsg.decAck k j.num i ∈ s.inbox) →
      (s.core n).evaled ≠ some (s.clk, keyCtx k) → ∃ t, exec (.routeComplete k) s = .next t ∧ (∀ q, q ≠ k → t.ctx q = s.ctx q) ∧ t.ctx k = { s.ctx k with
        evt := true, job := none, route := { (s.ctx k).route with busy := false, done := true } }) ∧
    (∀ i ∈ j.waits, LinkMsg.decAck k j.num i ∉ s.inbox → exec (.routeComplete k) s = .refused .notEnabled) ∧
    ((s.core n).evaled = some (s.clk, keyCtx k) → exec (.routeComplete k) s = .refused .notEnabled)) ∧
    (∃ t, exec (.expertTableWrite lx b val) s = .next t ∧ t = { s with experts := t.experts } ∧ ∀ i, t.expert i =
      if i = lx.toNat then (if b
        then { y with cap := val.toNat % 2 ^ 16, erows := val.toNat / 2 ^ 16 % 2 ^ 5, count := 0 }
        else { y with rbase := val.toNat / 256 * 256, count := 0 })
      else s.expert i)

/-- Dimensions and coordinates are accepted while no port is enabled and together they are legal, and refused with a count
in CFGERR otherwise. A port that is enabled trains, one that is disabled shows 0 and clears its FUNCREADY bit; a training
port comes up within the bound, or fails after it; a failed port clears its bit, a payload that waits for it is taken back
with code 1 and its CHSEND held, a collective whose ring uses it is noted to end with CODE 4, as its COLLECTIVE_COMPLETE
then does, and so is one whose descriptor is lost with it; words 1 and 2 of a ring entry take what is written while V is
clear, word 3, the next SEQ, is read-only, and word 0 sets V for a legal ring of no running collective; a word 0 that sets V
with an illegal n, RANK, MUL or module, or that is written while a collective of the ring is in flight, is refused and
counted in CFGERR (R289, R297, R298, R304, R352). The number of the event is the model's choice (log 33), and so is what
becomes of messages that wait for a lost port (log 32). -/
def Obligations.TorusConfiguration : Prop :=
  ∀ (s : State) (val : Word) (port : BitVec 3) (ring : BitVec 2) (o : OutMsg) (m : ChSend) (k : CtxKey) (i : Nat)
    (d : CollDesc),
    let T := s.torus
    let p := port.toNat
    let x := s.ring ring.toNat
    let y : Ring := if val.getLsbD 32 then { w0 := val &&& 0x10FFF1FFF, w1 := x.w1, w2 := x.w2 }
      else { x with w0 := val &&& 0x10FFF1FFF }
    let refuses : Instr → Nat → Prop := fun i off8 => ∃ t, exec i s = .next t ∧ t = { s with torus := t.torus } ∧
      t.torus = { T with cfgerr := BitVec.ofNat 64 (min (T.cfgerr.toNat % 2 ^ 16 + 1) 0xFFFF + 65536 * off8) }
    let ports : State → Nat → Prop := fun t st => ∀ q, q < 8 → t.torus.port q = if q = p then st else T.port q
    let rings : State → Ring → Prop := fun t z => ∀ r, t.ring r = if r = ring.toNat then z else s.ring r
    let since := tget 0 p T.since
    let bad := y.n = 0 ∨ 4096 < y.n ∨ y.n ≤ y.rank ∨ Nat.gcd y.mul y.n ≠ 1 ∨
      T.inside (BitVec.ofNat 12 y.w1.toNat) = false ∨ T.inside (BitVec.ofNat 12 (y.w1.toNat / 2 ^ 16)) = false
    (T.porten = 0 → torusOk val.toNat T.coord.toNat = true →
      exec (.dimsWrite val) s = .next { s with torus := { T with dims := val } }) ∧
    (T.porten = 0 → torusOk T.dims.toNat val.toNat = true →
      exec (.coordWrite val) s = .next { s with torus := { T with coord := val } }) ∧
    (T.porten ≠ 0 ∨ torusOk val.toNat T.coord.toNat = false → refuses (.dimsWrite val) 0) ∧
    (T.porten ≠ 0 ∨ torusOk T.dims.toNat val.toNat = false → refuses (.coordWrite val) 1) ∧
    (∃ t, exec (.portenWrite val) s = .next t ∧ KeepsData s t ∧ t.cores = s.cores ∧ t.torus.porten = val &&& 0xFF ∧
      t.torus.dims = T.dims ∧ t.torus.coord = T.coord ∧ ∀ q, q < 8 →
        (val.getLsbD q = true → T.porten.getLsbD q = false → t.torus.port q = 1 ∧ tget 0 q t.torus.since = s.clk) ∧
        (val.getLsbD q = false → T.porten.getLsbD q = true → t.torus.port q = 0 ∧
          t.funcready.getLsbD (32 + q) = false) ∧
        (val.getLsbD q = T.porten.getLsbD q → t.torus.port q = T.port q)) ∧
    (T.port p = 1 → s.clk ≤ since + 1880000 → ∃ t, exec (.portTrained port) s = .next t ∧ UnitOnly s t ∧ ports t 2 ∧
      t.funcready.getLsbD (32 + p) = true) ∧
    (T.port p = 1 → since + 1880000 ≤ s.clk → ∃ t, exec (.portTrainingTimeout port) s = .next t ∧ UnitOnly s t ∧
      ports t 3 ∧ t.funcready = s.funcready ∧ Raised s t 8 p 0) ∧
    (T.port p = 2 → ∃ t, exec (.portFailure port) s = .next t ∧ KeepsData s t ∧ t.cores = s.cores ∧ ports t 3 ∧
      t.funcready.getLsbD (32 + p) = false ∧
      (∀ src sch ch q tag data, s.out = [o] → s.outPort o = some p → o.send = some m →
        o.msg = .payload src sch ch q tag data → ∃ f, t.out = [] ∧ (t.ctx m.key).pend = (s.ctx m.key).pend ++ [f] ∧
          f.info.code = 15 ∧ f.srce = 9 ∧ f.held = some (.chsend m.ch m.q.toNat) ∧
          tget (0, 0) m.ch.toNat t.endErr = (1, min ((tget (0, 0) m.ch.toNat s.endErr).2 + 1) 0xFFFF)) ∧
      (s.out = [] → s.ringSlots ring.toNat = [(k, i, d)] → (∀ r, r < 4 → r ≠ ring.toNat → s.ringSlots r = []) →
        ((s.ctx k).coll i).begun = true → x.n ≠ 1 → (∃ e ∈ x.sides, e.2 = p) → (∀ e ∈ x.errs, e.1 ≠ x.next) →
        t.ctxs = s.ctxs ∧ t.ring ring.toNat = { x with errs := x.errs ++ [(x.next, 4)] } ∧
        (d.seq = x.next → d.ring = ring → (s.core (keyCore k)).evaled ≠ some (s.clk, keyCtx k) →
          ∃ u, exec (.collectiveComplete ring) t = .next u ∧ (u.ctx k).evt = true ∧
            (u.ring ring.toNat).next = x.next + 1 ∧ (u.ctx k).coll i = { (s.ctx k).coll i with
              st := 3, begun := false, status := BitVec.ofNat 64 (3 + 256 * 4 + 65536 * d.seq.toNat) })) ∧
      (∀ rank, s.out = [o] → s.outPort o = some p → o.msg = .member ring rank d → (∀ r, r < 4 → s.ringSlots r = []) →
        seqPast x.next d.seq = false → (∀ e ∈ x.errs, e.1 ≠ d.seq) → (t.ring ring.toNat).errs = x.errs ++ [(d.seq, 4)])) ∧
    (s.ringSlots ring.toNat = [] → y.v = true → y.entryOk T = true → ∃ t, exec (.ringEntryWrite ring 0 val) s = .next t ∧
      t = { s with rings := t.rings } ∧ rings t y) ∧
    (s.ringSlots ring.toNat ≠ [] ∨ (y.v = true ∧ bad) → refuses (.ringEntryWrite ring 0 val) (32 + 4 * ring.toNat)) ∧
    (s.ringSlots ring.toNat = [] → y.v = false → ∃ t, exec (.ringEntryWrite ring 0 val) s = .next t ∧
      t = { s with rings := t.rings } ∧ rings t y) ∧
    (x.v = false → ∃ t, exec (.ringEntryWrite ring 1 val) s = .next t ∧ t = { s with rings := t.rings } ∧
      rings t { x with w1 := val &&& 0x30FFF0FFF }) ∧
    (x.v = false → ∃ t, exec (.ringEntryWrite ring 2 val) s = .next t ∧ t = { s with rings := t.rings } ∧
      rings t { x with w2 := val &&& 0xFFFFFFFF }) ∧
    (x.v = true → refuses (.ringEntryWrite ring 1 val) (33 + 4 * ring.toNat) ∧
      refuses (.ringEntryWrite ring 2 val) (34 + 4 * ring.toNat)) ∧
    exec (.ringEntryWrite ring 3 val) s = .next s

/-! ## Search (spec/15) -/

/-- SGINST and SGINST.rm complete where their checks find no fault and SGINST's row waits for no acquire (R186): a request
sets out and the register waits. SQSUB completes on a FREE handle with 0 and one query last in the order of arrival, and on
another with 1. SQWAIT completes on a handle that is not PENDING, and .t on any: 2^64 - 1 for a FREE one, 2^64 - 2 for a
PENDING one, and the head of the result record for a DONE one, which it frees. SQCAN answers 2, 1 or 0, and a query that
has not ended is cancelled (R316 to R321, R333, R334). The earlier fused accesses of the context take effect first (log 11),
SQCAN meets its unit when it issues (log 36), and the graph of a query is looked up at its SQSUB (log 38): the model's
choices. -/
def Obligations.SearchInstructions : Prop :=
  ∀ (s : State) (rd base xs : XReg) (off : BitVec 32) (qh : BitVec 4) (q : Query) (v : Word),
    let ea := s.rx base + off.signExtend 64
    let z := s.flush
    let row := z.row z.myCore (ea.toNat / 256)
    let g := (s.rx xs).toNat
    let h := row.toNat / 2 ^ 8 % 2 ^ 4
    let gr := row.toNat % 2 ^ 6
    let i := qh.toNat
    let st := tget 0 i s.me.qh
    let query := queryOf s.starts s.iss.key row
      (match tget none gr s.graphs with | some x => if x.rm.isNone then some gr else none | none => none)
    let mine := s.searches.find? (fun q => q.key == s.iss.key && q.qh == i && !q.mute) = some q
    let answers : State → Word → Prop := fun t v => (∀ k, k ≠ s.iss.key → t.ctx k = s.ctx k) ∧ t.me = { s.me with
      replies := s.me.replies ++ [(rd, v)], xwait := s.me.xwait ++ if rd = 0 then [] else [rd] }
    let becomes : State → Query → Prop := fun t z => t = { s with ctxs := t.ctxs, searches := t.searches } ∧
      t.searches = s.searches.map fun y => if y.id = q.id then z else y
    (z.rowFault ea 0 256 = none → graphOk row = true → NoAcquire s → ∃ t, exec (.sginst rd base off) s = .next t ∧
      AwaitsX z t rd ∧ t = { z with
        ctxs := t.ctxs, starts := s.starts + 1
        installs := z.installs ++ [{ id := s.starts, key := s.iss.key, xd := rd, row := row, held := false }] }) ∧
    (z.rowFault ea 0 256 = none → graphOk row = false → NoAcquire s → TrapsAtIssue (.sginst rd base off) s 10 0 0) ∧
    (g < 64 → ∃ t, exec (.sginstRm rd xs) s = .next t ∧ AwaitsX s t rd ∧
      t = { s with ctxs := t.ctxs, removals := s.removals ++ [{ key := s.iss.key, xd := rd, g := g }] }) ∧
    (64 ≤ g → TrapsAtIssue (.sginstRm rd xs) s 10 0 0) ∧
    (z.sqsubFault ea = none → tget 0 h s.me.qh = 0 → NoAcquire s → ∃ t, exec (.sqsub rd base off) s = .next t ∧
      t = { z with ctxs := t.ctxs, searches := z.searches ++ [query], starts := s.starts + 1 } ∧
      (∀ k, k ≠ s.iss.key → t.ctx k = s.ctx k) ∧
      t.me = { z.me with regs := { z.me.regs with x := t.me.regs.x }, qh := t.me.qh } ∧
      (∀ r, t.me.xr r = if r = rd ∧ r ≠ 0 then 0 else z.me.xr r) ∧
      ∀ r, tget 0 r t.me.qh = if r = h then 1 else tget 0 r s.me.qh) ∧
    (z.sqsubFault ea = none → tget 0 h s.me.qh ≠ 0 → NoAcquire s →
      ∃ t, exec (.sqsub rd base off) s = .next t ∧ WritesX z t rd 1) ∧
    (st = 0 → ToX (.sqwait rd qh) s rd (BitVec.allOnes 64) ∧ ToX (.sqwaitT rd qh) s rd (BitVec.allOnes 64)) ∧
    (st = 1 → ToX (.sqwaitT rd qh) s rd (BitVec.ofNat 64 (2 ^ 64 - 2))) ∧
    (st = 2 → tget none i s.me.qres = some v → ∀ tm : Bool,
      ∃ t, exec (if tm then .sqwaitT rd qh else .sqwait rd qh) s = .next t ∧ OnlyCtx s t s.iss.key ∧
        t.me = { s.me with regs := { s.me.regs with x := t.me.regs.x }, qh := t.me.qh, qres := t.me.qres } ∧
        (∀ r, t.me.xr r = if r = rd ∧ r ≠ 0 then v else s.me.xr r) ∧
        ∀ r, tget 0 r t.me.qh = if r = i then 0 else tget 0 r s.me.qh) ∧
    (st = 0 → ∃ t, exec (.sqcan rd qh) s = .next t ∧ answers t 2 ∧ t = { s with ctxs := t.ctxs }) ∧
    (st = 2 → ∃ t, exec (.sqcan rd qh) s = .next t ∧ answers t 1 ∧ t = { s with ctxs := t.ctxs }) ∧
    (st = 1 → mine → q.res ≠ none → ∃ t, exec (.sqcan rd qh) s = .next t ∧ answers t 1 ∧ t = { s with ctxs := t.ctxs }) ∧
    (st = 1 → mine → q.res = none → ∃ t, exec (.sqcan rd qh) s = .next t ∧ answers t 0 ∧
      becomes t (if q.running then { q with cancel := true } else q.finish 3))

/-- A graph whose regions pass is installed in the lowest free entry, and one whose regions fail is held with the
search-layout fault; a removal is marked, and answered 0 once the last query on the graph has ended. A query without a graph
ends with code 4; a round of a running query ends it with code 3 where it is cancelled, 0 where nothing is left to expand,
and 1 at MAXR, and otherwise counts, and visits the neighbours of the candidates it expands; one whose home unit is not
ready ends with code 6. A query with a graph is admitted where the pool has room: its vector is read and its entry points
are visited, and rows past the extent end it with code 5. A VISIT sets BADID for an id that names no node, leaves one of VIS
alone, is full at V, and otherwise counts a distance and puts the candidate in its place in a heap of at most L; the
distance is the sum of R324, lane pairs first. A result record holds the fields of R330, its counts and pairs none with
codes 4 to 6 (R331). The oldest query of a context that has ended writes its result rows, becomes DONE and sets EVT, and
does so on the clk of an evaluation of its context before that only (R311 to R333). That a record's error ends the VISIT
without a count, and the address of its fault, are the model's choice (log 38). -/
def Obligations.SearchEvents : Prop :=
  ∀ (s : State) (k : CtxKey) (r : GraphReq) (rm : GraphRm) (g : Nat) (x : Graph) (parts : List (Nat × List Region))
    (n i a : Nat) (q : Query) (stack : BitVec 3) (l : List Byte) (rd : XReg) (e : BitVec 6) (id off fl code : Nat)
    (reg : Region) (vec nbrs v : List Nat) (pairs : List Cand) (c : Cand),
    let graphs : State → Nat → Option Graph → Prop := fun t i y =>
      ∀ j, tget none j t.graphs = if j = i then y else tget none j s.graphs
    let mine := s.installs.find? (fun q => q.key == k && !q.held) = some r
    let ends : State → Nat → Prop := fun t code => t = { s with searches := t.searches } ∧
      t.searches = s.searches.map fun y => if y.id = q.id then q.finish code else y
    let ready := s.funcready.getLsbD (16 + q.home) = true
    let next := s.searches.find? (fun q => q.home == stack.toNat && !q.running && q.res.isNone) = some q
    let cnt := (x.dim * graphBytes x.ty + 255) / 256
    let room := s.poolUsed q.home + 256 * ((8 * q.v + 16 * q.l + x.dim * graphBytes x.ty + 1024 + 255) / 256) ≤ 14 * 2 ^ 20
    let begun := { q with running := true, held := false, vec := widenBytes x.ty x.dim l, heap := [], vis := [], rounds := 0,
                          dc := 0, flags := 0 }
    let cs := (q.heap.filter fun c => !c.expanded).take q.w
    let expanded := q.heap.map fun c => if cs.any (fun y => y.node == c.node) then { c with expanded := true } else c
    let round := { q with rounds := q.rounds + 1, heap := expanded }
    let visited : State → Query → List Nat → Prop := fun t q0 ids => ∀ z, s.visitAll x q0 ids = (.ok, z) →
      t = { s with searches := s.searches.map fun y => if y.id = z.id then z else y }
    let visits : VisitEnd → Query → Prop := fun r z => s.visit x q id = (r, z)
    let fresh := x.findRegion id = some (reg, off) ∧ (∀ y ∈ q.vis, y.1 ≠ id) ∧ q.vis.length ≠ q.v ∧
      s.funcready.getLsbD (16 + id / 2 ^ 29) = true ∧ s.readNode x reg off = .ok (vec, nbrs, fl)
    let cand : Cand := { d := dist x.metric x.dim q.vec vec, node := id, expanded := false }
    let counted := { q with vis := q.vis ++ [(id, nbrs)], dc := q.dc + 1, flags := Nat.lor (Nat.lor q.flags fl)
                              (if fmt32.decode cand.d = .nan then 64 else 0), heap := (s.visit x q id).2.heap }
    let term : Nat → Nat := fun i => if x.metric = 0
      then (fmt32.mul (fmt32.sub (vec.getD i 0) (v.getD i 0)).1 (fmt32.sub (vec.getD i 0) (v.getD i 0)).1).1
      else (fmt32.mul (vec.getD i 0) (v.getD i 0)).1
    let lane : Nat → Nat → Nat := fun n l => Nat.rec 0 (fun b a =>
      if 32 * b + l < x.dim then (fmt32.add a (term (32 * b + l))).1 else a) n
    let tree : Nat → Nat → Nat := fun n => Nat.rec (lane ((x.dim + 31) / 32))
      (fun _ f j => (fmt32.add (f (2 * j)) (f (2 * j + 1))).1) n
    let signed := if x.metric = 0 then tree 5 0 else if x.metric = 1
      then (if fmt32.decode (tree 5 0) = .nan then tree 5 0 else Nat.xor (tree 5 0) (2 ^ 31)) else (fmt32.sub 0x3F800000 (tree 5 0)).1
    let record := resultBytes q code pairs n
    let none6 := code = 4 ∨ code = 5 ∨ code = 6
    let shown := if none6 then [] else pairs
    let runs := s.searches.find? (fun y => y.key == k && y.qh == q.qh && y.running && !y.held) = some q ∧ q.qh < 16 ∧
      s.queryGraph q = some x
    (mine → s.graphStacks r.row (List.range 8) = .ok parts → g < 64 → tget none g s.graphs = none →
      (∀ j, j < g → tget none j s.graphs ≠ none) → ∃ t, exec (.graphInstall k) s = .next t ∧
        t = { s with ctxs := t.ctxs, installs := s.installs.erase r, graphs := t.graphs } ∧
        graphs t g (some (graphOf r.row parts)) ∧ Replied s t k r.xd (BitVec.ofNat 64 g)) ∧
    (mine → s.graphStacks r.row (List.range 8) = .ok parts → (∀ j, j < 64 → tget none j s.graphs ≠ none) →
      ∃ t, exec (.graphInstall k) s = .next t ∧ t = { s with ctxs := t.ctxs, installs := s.installs.erase r } ∧
        Replied s t k r.xd (BitVec.ofNat 64 (2 ^ 64 - 2))) ∧
    (mine → s.graphStacks r.row (List.range 8) = .error (n, i, a) → ∃ t f, exec (.graphInstall k) s = .next t ∧
      t.graphs = s.graphs ∧ (t.ctx k).pend = (s.ctx k).pend ++ [f] ∧ f.info.code = 16 ∧ f.info.eaddr = BitVec.ofNat 64 a ∧
      f.srce = 11 ∧ f.held = some (.sginst r.id) ∧ KeepsData s t) ∧
    (s.removals.find? (fun q => q.key == k) = some rm → tget none rm.g s.graphs = some x → x.rm = none →
      ∃ t, exec (.graphRemoveReceipt k) s = .next t ∧ t = { s with removals := s.removals.erase rm, graphs := t.graphs } ∧
        graphs t rm.g (some { x with rm := some (k, rm.xd) })) ∧
    (s.removals.find? (fun q => q.key == k) = some rm → tget none rm.g s.graphs = none →
      ∃ t, exec (.graphRemoveReceipt k) s = .next t ∧ t = { s with ctxs := t.ctxs, removals := s.removals.erase rm } ∧
        Replied s t k rm.xd 1) ∧
    (tget none e.toNat s.graphs = some x → x.rm = some (k, rd) → (∀ q ∈ s.searches, q.graph = some e.toNat → q.res ≠ none) →
      ∃ t, exec (.graphEntryFreed e) s = .next t ∧ t = { s with ctxs := t.ctxs, graphs := t.graphs } ∧
        graphs t e.toNat none ∧ Replied s t k rd 0) ∧
    (next → s.queryGraph q = none → ready → ∃ t, exec (.queryAdmit stack) s = .next t ∧ ends t 4) ∧
    (next → ¬ ready → ∃ t, exec (.queryAdmit stack) s = .next t ∧ ends t 6) ∧
    (next → s.queryGraph q = some x → ready → room → s.extent (keyCore q.key) < (q.qrow + cnt) * 256 →
      ∃ t, exec (.queryAdmit stack) s = .next t ∧ ends t 5) ∧
    (next → s.queryGraph q = some x → ready → room → (q.qrow + cnt) * 256 ≤ s.extent (keyCore q.key) →
      s.rowsData (keyCore q.key) q.qrow cnt = some l → ∃ t, exec (.queryAdmit stack) s = .next t ∧ visited t begun q.eps) ∧
    (x.findRegion id = none → visits .ok { q with flags := Nat.lor q.flags 16 }) ∧
    (x.findRegion id = some (reg, off) → (∃ y ∈ q.vis, y.1 = id) → visits .ok q) ∧
    (x.findRegion id = some (reg, off) → (∀ y ∈ q.vis, y.1 ≠ id) → q.vis.length = q.v → visits .full q) ∧
    (x.findRegion id = some (reg, off) → (∀ y ∈ q.vis, y.1 ≠ id) → q.vis.length ≠ q.v →
      s.funcready.getLsbD (16 + id / 2 ^ 29) = false → visits .notReady q) ∧
    (fresh → visits .ok counted ∧
      (q.heap.length < q.l → ∀ y, y ∈ counted.heap ↔ y = cand ∨ y ∈ q.heap) ∧
      (q.l ≤ q.heap.length → q.heap.getLast? = some c → cand.before c = false → counted.heap = q.heap) ∧
      (q.l ≤ q.heap.length → q.heap.getLast? = some c → cand.before c = true →
        ∀ y, y ∈ counted.heap ↔ y = cand ∨ y ∈ q.heap.dropLast) ∧
      (q.heap.Pairwise (fun a b => b.before a = false) → counted.heap.Pairwise fun a b => b.before a = false)) ∧
    (dist x.metric x.dim vec v = if signed = 2 ^ 31 then 0 else signed) ∧
    (q.flags < 256 → q.flags % 16 = 0 → code < 7 → n < 2 ^ 32 → q.rounds < 2 ^ 32 → q.dc < 2 ^ 32 → pairs.length ≤ q.k →
      q.k ≤ 512 → q.seq < 2 ^ 32 → record.length = 256 * ((32 + 8 * q.k + 255) / 256) ∧ dfield record 0 4 = code + q.flags ∧
        dfield record 4 4 = (if none6 then 0 else q.rounds) ∧ dfield record 8 4 = (if none6 then 0 else q.dc) ∧
        dfield record 12 4 = (if none6 then 0 else n) ∧ dfield record 16 2 = shown.length ∧ dfield record 18 2 = 0 ∧
        dfield record 20 4 = q.seq ∧ dfield record 24 8 = 0 ∧
        (∀ j c, shown[j]? = some c → dfield record (32 + 8 * j) 4 = c.node % 2 ^ 32 ∧
          dfield record (36 + 8 * j) 4 = c.d % 2 ^ 32) ∧
        (∀ j, shown.length ≤ j → j < q.k → dfield record (32 + 8 * j) 4 = 0xFFFFFFFF ∧
          dfield record (36 + 8 * j) 4 = 0x7FC00000) ∧
        ∀ j, 32 + 8 * q.k ≤ j → record.getD j 0 = 0) ∧
    ((q.finish code).res = some (resultBytes q code (q.heap.take q.k) q.vis.length)) ∧
    (runs → ¬ ready → ∃ t, exec (.queryRound k (BitVec.ofNat 4 q.qh)) s = .next t ∧ ends t 6) ∧
    (runs → ready → q.cancel = true → ∃ t, exec (.queryRound k (BitVec.ofNat 4 q.qh)) s = .next t ∧ ends t 3) ∧
    (runs → ready → q.cancel = false → (∀ c ∈ q.heap, c.expanded = true) →
      ∃ t, exec (.queryRound k (BitVec.ofNat 4 q.qh)) s = .next t ∧ ends t 0) ∧
    (runs → ready → q.cancel = false → 0 < q.w → (∃ c ∈ q.heap, c.expanded = false) → q.rounds = q.maxr →
      ∃ t, exec (.queryRound k (BitVec.ofNat 4 q.qh)) s = .next t ∧ ends t 1) ∧
    (runs → ready → q.cancel = false → 0 < q.w → (∃ c ∈ q.heap, c.expanded = false) → q.rounds ≠ q.maxr →
      ∃ t, exec (.queryRound k (BitVec.ofNat 4 q.qh)) s = .next t ∧ KeepsData s t ∧
        (∀ y ∈ t.searches, y.id = q.id → y.rounds = q.rounds + 1 ∨ y.held = true) ∧
        visited t round (cs.flatMap fun c =>
          match q.vis.find? (fun e => e.1 == c.node) with | some e => e.2 | none => [])) ∧
    (s.searches.find? (fun q => q.key == k) = some q → q.res = some l → q.mute = false →
      (q.rrow + l.length / 256) * 256 ≤ s.extent (keyCore k) → l.length % 256 = 0 →
      (s.core (keyCore k)).evaled ≠ some (s.clk, keyCtx k) → ∃ t, exec (.queryVisible k) s = .next t ∧ t.searches = s.searches.erase q ∧ (t.ctx k).evt = true ∧
        (t.ctx k).regs = (s.ctx k).regs ∧ t.dram = s.dram ∧
        (∀ j, tget 0 j (t.ctx k).qh = if j = q.qh then 2 else tget 0 j (s.ctx k).qh) ∧
        tget none q.qh (t.ctx k).qres = some (BitVec.ofNat 64 (ofBytes (l.take 8))) ∧
        ∀ i b, i < l.length / 256 → b < 256 →
          tget 0 (s.spadAddr (keyCore k) (256 * (q.rrow + i)) + b) t.spad.bytes = l.getD (256 * i + b) 0) ∧
    (s.searches.find? (fun q => q.key == k && (!q.mute || q.res.isSome)) = some q → q.mute = false →
      (s.core (keyCore k)).evaled = some (s.clk, keyCtx k) → exec (.queryVisible k) s = .refused .notEnabled)

/-! ## Traps, system control and the platform (spec/14) -/

/-- TRAP traps at the next PC with its number in SR_EINFO, and BRK at issue. ERET and ERET.disc return to SR_EPC.PC and
PSYS, and leave a context without a share idle, with the bubble of a taken branch; with HELD set, ERET replays the held
operation and ERET.disc discards it, each kind as R343 says, and both clear HELD. DLOAD loads a dictionary that fits and
empties the code buffer, or raises the fault of its image; TLBINV and TLBINV.all leave no entry of the page, or none at all,
and the migration windows of their pages stand open or closed as the tables then show (R208; log 45); STOP sends its
request. Outside system mode the privileged instructions take the protection trap at issue (R28 to R30, R51, R345, R348,
R349). -/
def Obligations.SystemInstructions : Prop :=
  ∀ (s : State) (n : BitVec 16) (rd xs base : XReg) (off : BitVec 32) (disc dl : Bool) (i ident cnt id : Nat)
    (l : List (BitVec 384)) (f : Nat × Nat) (sn : SReg) (mst : BitVec 2) (op : MatOp) (ops : List MatOp) (die : BitVec 3)
    (ch : BitVec 6) (cc : BitVec 8) (qh : BitVec 4),
    let k := s.iss.key
    let me := s.me
    let ea := s.rx base + off.signExtend 64
    let epc := me.tr.epc
    let ret : Instr := if disc then .eretDisc else .eret
    let x := me.probe.slot i
    let back : State → Prop := fun t => t = { s with ctxs := t.ctxs, cores := t.cores } ∧ (∀ j, j ≠ k → t.ctx j = s.ctx j) ∧
      t.me.sys = epc.getLsbD 63 ∧ t.me.pc = BitVec.ofNat 55 epc.toNat ∧ t.me.regs = me.regs ∧ t.me.stat = me.stat ∧
      (t.core s.myCore).nextIssue = s.branchClk s.myCore (BitVec.ofNat 55 epc.toNat)
    let again : HeldOp → (State → Prop) → Prop := fun o P => me.sys = true → me.stop = .none → me.tr.cause.getLsbD 10 = true →
      me.held = some o → me.share.held = true → me.share.ending = false → ∃ t, exec ret s = .next t ∧
        t.dram = s.dram ∧ t.spad = s.spad ∧ (∀ j, (t.ctx j).regs = (s.ctx j).regs) ∧ t.me.held = none ∧
        t.me.tr = { me.tr with cause := me.tr.cause &&& ~~~0x400#64 } ∧ t.me.sys = epc.getLsbD 63 ∧
        t.me.pc = BitVec.ofNat 55 epc.toNat ∧ P t
    let freed : Handle → Nat → Handle := fun y srck => { y with st := .free, status := BitVec.ofNat 64 (256 * srck) }
    let st := me.stream sn
    let chan := s.chan die.toNat ch
    let gathers := (s.core s.myCore).gathers
    let d := coreDie s.myCore
    let target : CtxKey := BitVec.ofNat 14 ((s.rx xs).toNat % 4096 * 4 + (s.rx xs).toNat / 4096)
    (∃ t, exec (.trap n) s = .next t ∧ Trapped s t k
      { cause := 19, epc := BitVec.ofNat 64 (s.iss.pcn.toNat + if me.sys then 2 ^ 63 else 0), emask := 0, eaddr := 0,
        einfo := n.setWidth 64 } none 19) ∧
    TrapsAtIssue (.brk n) s 20 0 (n.setWidth 64) ∧
    (me.sys = true → me.stop = .none → me.tr.cause.getLsbD 10 = false → me.share.held = true → me.share.ending = false →
      ∃ t, exec ret s = .next t ∧ back t ∧ t.me.run = me.run ∧ t.me.tr = me.tr ∧ t.me.held = me.held) ∧
    (me.sys = true → me.stop = .none → me.tr.cause.getLsbD 10 = false → me.share.held = false → me.loaded = false →
      ∃ t, exec ret s = .next t ∧ back t ∧ t.me.run = .idle) ∧
    (∀ sl, st.held = some sl → again (.fill sn sl) (fun t => (∀ r, r ≠ sn → (t.me.stream r).bound = (me.stream r).bound) ∧
      (t.me.stream sn).bound = (!disc && st.bound) ∧ (disc = false → (t.me.stream sn).held = none ∧
        (t.me.stream sn).again = if st.kind = 0 then some sl else none)) ∧
      again (.drain sn sl) fun t => (t.me.stream sn).bound = (!disc && st.bound) ∧
        (disc = false → (t.me.stream sn).held = none ∧ (t.me.stream sn).drained = st.drained)) ∧
    ((s.arr s.myCore).queue mst = op :: ops → op.held = true → again (.matrix mst) fun t => ∀ r, (t.arr s.myCore).queue r =
      if r = mst then (if disc then ops else { op with held := false } :: ops) else (s.arr s.myCore).queue r) ∧
    (chan.st = .held → again (.copy die ch) fun t =>
      t.chan die.toNat ch = if disc then { chan with st := .idle, addr := 0, cur := none } else { chan with st := .walking }) ∧
    (∀ g, gathers.find? (fun g => g.id == id && g.held) = some g → g.rows = none →
      again (if g.scatter then .scatter id else .gather id) fun t => if disc
        then (t.core s.myCore).gathers = gathers.filter (fun y => y.id != id) ∧
          t.handle s.myCore g.h = freed (s.handle s.myCore g.h) (if g.scatter then 3 else 2)
        else (t.core s.myCore).gathers = gathers.map fun y => if y.id = id then { g with held := false } else y) ∧
    (∀ c, s.stashRx.find? (fun c => c.id == id && c.held) = some c → again (.stash id) fun t => if disc
      then t.stashRx = s.stashRx.filter (fun y => y.id != id) ∧
        t.handle (keyCore c.key) c.h = freed (s.handle (keyCore c.key) c.h) c.kind.srck
      else t.stashRx = s.stashRx.map fun y => if y.id = id then { c with held := false } else y) ∧
    (x.held = true → again (.probe i) fun t => (∀ j, j ≠ i → t.me.probe.slot j = me.probe.slot j) ∧ if disc
      then t.me.probe.slot i = {} else t.me.probe.slot i = { x with held := false, fill := (t.me.probe.slot i).fill }) ∧
    (∀ u e, me.unstaged.find? (fun u => u.held && u.va == id) = some u → again (.commit id) fun t => if disc
      then t.me.unstaged = me.unstaged.erase u ∧ t.me.staged = me.staged
      else u.why = .fault → s.migHeld = [] → s.pte (unitOf k) id = some e → pteW e = true → pteC e = false →
        s.pageMig (unitOf k) (id / 2 ^ 21) = false → me.stagedCount < 1024 → t.me.unstaged = me.unstaged.erase u ∧
          t.me.staged = addStaged me.staged (pteByte e id / 256) id ⟨u.epoch, u.mask, u.data⟩) ∧
    again (.amog id) (fun t => t.me.amogs = if disc then me.amogs.filter (fun a => a.num != id)
      else me.amogs.map fun a => if a.num = id then { a with held := false } else a) ∧
    (∀ m, s.sends.find? (fun m => m.ch == cc && m.q.toNat == id && m.held) = some m → m.data = none →
      again (.chsend cc id) fun t => if disc
        then t.sends = s.sends.filter (fun y => y.id != m.id) ∧ (t.chEnd cc).broken = true ∧
          tget (0, 0) cc.toNat t.endErr = (1, (tget (0, 0) cc.toNat s.endErr).2)
        else t.sends = s.sends.map fun y => if y.id = m.id then { m with held := false } else y) ∧
    (∀ q, s.searches.find? (fun q => q.key == k && q.qh == qh.toNat && q.held && !q.mute) = some q → disc = true →
      again (.query qh) fun t => t.searches = s.searches.map fun y =>
        if y.id = q.id then ({ q with held := false } : Query).finish 6 else y) ∧
    (∀ q x, s.searches.find? (fun q => q.key == k && q.qh == qh.toNat && q.held && !q.mute) = some q → disc = false →
      s.queryGraph q = some x →
      again (.query qh) fun t => t.searches = (s.beginSearch { q with held := false } x).searches) ∧
    (∀ q, s.installs.find? (fun q => q.id == id && q.held) = some q → again (.sginst id) fun t => if disc
      then t.installs = s.installs.erase q ∧
        t.me.replies = me.replies ++ [(q.xd, BitVec.allOnes 64)]
      else t.installs = s.installs.map fun y => if y.id = id then { q with held := false } else y) ∧
    (s.dictHeader d ea.toNat = .ok (ident, cnt) → (∀ w ∈ (s.core s.myCore).dict, w.ident ≠ ident) →
      s.fits k ident cnt = true → s.dictEntries d ea.toNat cnt = .ok l →
      ∃ t r, exec (.dload base off) s = .next t ∧ KeepsData s t ∧ (∀ j, j ≠ k → t.ctx j = s.ctx j) ∧
        t.me.window = some (ident, ea.toNat) ∧ (t.core s.myCore).code = [] ∧
        (t.core s.myCore).dict = r ++ [{ ident := ident, entries := l }]) ∧
    (s.loadWindow k ea.toNat = .error f → f.1 < 256 →
      TrapsAtIssue (.dload base off) s f.1 (BitVec.ofNat 64 f.2) 0) ∧
    (me.sys = true → s.migHeld = [] → s.bar2 = [] → ∃ t, exec (.tlbinv xs) s = .next t ∧
      t = { s with ctxs := t.ctxs, tlb := t.tlb, migOpen := t.migOpen } ∧ (∀ j, t.ctx j = s.ctx j) ∧
      (∀ u, tget 0 ((s.rx xs).toNat / 2 ^ 21) (tget [] u t.tlb) = 0) ∧
      ∀ p, p ∈ t.migOpen ↔ if p = (s.rx xs).toNat / 2 ^ 21 then s.walkMig p = true else p ∈ s.migOpen) ∧
    (me.sys = true → s.migHeld = [] → s.bar2 = [] → ∃ t, exec .tlbinvAll s = .next t ∧
      t = { s with ctxs := t.ctxs, tlb := [], migOpen := t.migOpen } ∧ (∀ j, t.ctx j = s.ctx j) ∧
      ∀ p, p ∈ t.migOpen ↔ (p ∈ s.migOpen ∨ p ∈ s.writtenPages) ∧ s.walkMig p = true) ∧
    (me.sys = true → (s.rx xs).toNat < 2 ^ 14 → ∃ t, exec (.stop rd xs) s = .next t ∧ AwaitsX s t rd ∧
      t = { s with ctxs := t.ctxs, stops := s.stops ++ [{ key := k, xd := rd, target := target }] }) ∧
    (me.sys = true → 2 ^ 14 ≤ (s.rx xs).toNat → TrapsAtIssue (.stop rd xs) s 10 0 0) ∧
    (me.sys = false → ∀ i ∈ [ret, .ctxsave base off disc dl, .ctxload base off, .tlbinv xs, .tlbinvAll, .stop rd xs],
      TrapsAtIssue i s 8 0 0)

/-- CTXSAVE whose release is complete writes the 41 rows of the image to its page, and no other byte of global memory
changes; then the context becomes idle, without its window, and its share ends: the open chunk stays open with its OWNER
word holding OPEN and no context number, the task stays RUNNING, and MODE NONE sets the task's abort flag with an event
(R279). A register that awaits a result keeps the save waiting (R42). Its first evaluation begins the save, with DISC after
discarding every held operation; a misaligned address takes the operand-format trap, and without DISC a held operation takes
it too. The image holds each register and field in the rows and bytes of R346, and zero in the reserved ones. CTXLOAD of an
image that passes its checks restores the registers that the image gives, from their places, stays in system mode, and
empties the code buffer (R29, R346, R347). The number of the event is the model's choice (log 33). That the steps of a save
take one evaluation each, and its faults while it waits, are the model's choice (log 28). -/
def Obligations.ContextSaveAndLoad : Prop :=
  ∀ (s : State) (base : XReg) (off : BitVec 32) (dl disc f : Bool) (v : Save) (e : Nat) (l bs : List Byte) (c : Ctx)
    (n ident a d j g : Nat) (x : Task) (card : Card) (ch : Chunk) (en : JEntry) (nl : Bool),
    let im : Nat → Nat → Nat → Nat := fun r lo n => dfield c.image (256 * r + lo) n
    let str := tget {} n c.streams
    let k := s.iss.key
    let me := s.me
    let ea := s.rx base + off.signExtend 64
    let p := pteByte e v.ea
    let y := me.ofImage l
    let saving := me.sys = true ∧ me.save = some v ∧ me.pend = [] ∧
      (disc = true → me.held = none ∧ me.tr.cause.getLsbD 10 = false)
    let ends : State → Prop := fun t => exec (.ctxsave base off disc dl) s = .next t ∧ t.me.run = .idle ∧ t.me.save = none ∧
      t.me.stop = .none ∧ t.me.window = none ∧ (∀ j, (t.ctx j).regs = (s.ctx j).regs)
    let owner := card.jcb + 64 + 16 * en.idx + 12
    (saving → v.step = 2 → s.rateHolds k v = false → v.pages = [e] → pteMig e = false → v.ea % 256 = 0 →
      v.ea % 2 ^ 21 + 10496 ≤ 2 ^ 21 → (∀ i, i < 41 → s.blkLost (p / 256 + i) = false) →
      ∃ t, exec (.ctxsave base off disc dl) s = .next t ∧ t.spad = s.spad ∧ t.cores = s.cores ∧
        (∀ j, j ≠ k → t.ctx j = s.ctx j) ∧ t.me = { me with save := some { v with step := 3 } } ∧
        ∀ j, tget 0 j t.dram.bytes =
          if p ≤ j ∧ j < p + 10496 then me.image.getD (j - p) 0 else tget 0 j s.dram.bytes) ∧
    (me.sys = true → me.save = some v → v.step = 0 → me.pend = [] → me.xwait ≠ [] ∨ me.vwait ≠ [] →
      exec (.ctxsave base off false dl) s = .next s) ∧
    (saving → v.step = 3 → me.share.held = false → ∃ t, ends t ∧ t.dram = s.dram ∧ t.spad = s.spad ∧
      (∀ j, j ≠ k → t.ctx j = s.ctx j) ∧ (t.core s.myCore).ref = keyCtx k ∧
      (me.window = none → (t.core s.myCore).dict = (s.core s.myCore).dict) ∧
      (me.window = some (ident, a) → (t.core s.myCore).dict = if ident ∈ s.otherIdents k then (s.core s.myCore).dict
        else (s.core s.myCore).dict.filter (fun w => w.ident != ident) ++
          (s.core s.myCore).dict.filter fun w => w.ident == ident)) ∧
    (saving → v.step = 3 → me.share.held = true → me.share.chunk = some ch → s.findTask me.share.task = some (d, j, x) →
      x.st = .running → x.abort = false → x.job = some card → x.open_.find? (fun y => y.idx == ch.entry) = some en →
      card.jcb % 64 = 0 → s.writeFault d owner 4 = none → s.readVA d none owner 4 = .ok (bs, nl) → s.pte d owner = some g →
      s.blkLost (pteByte g owner / 256) = false → s.pageMig d (owner / 2 ^ 21) = false → s.migHeld = [] →
      ∃ t, ends t ∧ t.me.share.held = false ∧ t.spad.bytes = s.spad.bytes ∧
        (∀ i, i < 4 → tget 0 (pteByte g owner + i) t.dram.bytes = if i = 3 then 0x80 else 0) ∧
        (∀ i, i / 256 ≠ pteByte g owner / 256 → tget 0 i t.dram.bytes = tget 0 i s.dram.bytes) ∧
        (tget false (pteByte g owner / 256) s.dram.dead = false → ∀ i, i < pteByte g owner ∨ pteByte g owner + 4 ≤ i →
          tget 0 i t.dram.bytes = tget 0 i s.dram.bytes) ∧
        (card.mode ≠ 2 → (t.taskAt d j).st = .running ∧ (t.taskAt d j).abort = false ∧
          (t.taskAt d j).shares = x.shares - 1 ∧
          (t.taskAt d j).open_ = x.open_.map fun y => if y.idx = en.idx then { y with owner := none } else y) ∧
        (card.mode = 2 → Raised s t 10 (d * 4096 + j) 0 ∧ (2 ≤ x.shares → (t.taskAt d j).abort = true))) ∧
    (me.sys = true → me.save = none → ea.toNat % 256 = 0 → me.held = none → me.pend = [] → me.stop = .none →
      s.writeFault (unitOf k) ea.toNat 10496 = none → ∃ t w, exec (.ctxsave base off false dl) s = .next t ∧
        KeepsData s t ∧ t.me.run = me.run ∧ t.me.pc = me.pc ∧ t.me.save = some w ∧ w.ea = ea.toNat ∧ w.step = 0 ∧
        w.deadline = if dl then some (s.clk + s.ctl.savedl.toNat) else none) ∧
    (me.sys = true → me.save = none → ea.toNat % 256 = 0 → s.writeFault (unitOf k) ea.toNat 10496 = none →
      ∃ t w, exec (.ctxsave base off true dl) s = .next t ∧ t.dram = s.dram ∧ t.spad = s.spad ∧
        (∀ j, (t.ctx j).regs = (s.ctx j).regs) ∧ t.me.run = me.run ∧ t.me.pc = me.pc ∧ t.me.held = none ∧ t.me.pend = [] ∧
        t.me.tr = { me.tr with cause := me.tr.cause &&& ~~~0x400#64 } ∧ t.me.save = some w ∧ w.ea = ea.toNat ∧ w.step = 0) ∧
    (me.sys = true → me.save = none → ea.toNat % 256 ≠ 0 → TrapsAtIssue (.ctxsave base off disc dl) s 10 0 0) ∧
    (me.sys = true → me.save = none → me.held ≠ none → TrapsAtIssue (.ctxsave base off false dl) s 10 0 0) ∧
    (c.image.length = 10496 ∧ (∀ r : VReg, im r.toNat 0 256 = (c.vr r).toNat) ∧
      (∀ r : XReg, im 32 (8 * r.toNat) 8 = (c.xr r).toNat ∧ (im 34 0 8).testBit r.toNat = c.pr r) ∧
      (∀ r : MReg, im 34 (8 + 8 * r.toNat) 8 = (c.mr r).toNat) ∧ im 34 136 120 = 0 ∧
      (∀ i, i < 8 → im 35 (16 * i) 16 = (tget 0 i c.d).toNat) ∧
      ([128, 136, 144, 152, 160, 168, 176, 184, 192].map fun b => im 35 b 8) =
        [c.stat.fpstat, c.stat.optstat, c.stat.rndseed, c.stat.rndctr, c.tr.epc, c.tr.cause, c.tr.emask, c.tr.eaddr,
          c.tr.einfo].map BitVec.toNat ∧
      im 35 200 8 = (if c.evt then 1 else 0) ∧ im 35 208 8 = (c.probe.srow + 65536 * c.probe.nslot) % 2 ^ 64 ∧
      ((∀ q, tget 0 q c.qh < 4) → ∀ q, q < 16 → im 35 216 4 / 4 ^ q % 4 = tget 0 q c.qh) ∧ im 35 220 36 = 0 ∧
      (n < 16 → str.bound = false → im 36 (64 * n) 64 = 0) ∧
      (n < 16 → str.bound = true → (c.image.drop (9216 + 64 * n)).take 37 = str.descBytes ∧
        im 36 (64 * n + 37) 1 = str.tail % 256 ∧ im 36 (64 * n + 38) 2 = 0 ∧ im 36 (64 * n + 40) 8 = str.pos % 2 ^ 64 ∧
        im 36 (64 * n + 48) 4 = str.eb % 2 ^ 32 ∧ im 36 (64 * n + 52) 12 = 1) ∧
      (n < 4 → im 40 (8 * n) 8 = (tget {} n c.colls).word.toNat) ∧ im 40 32 8 = c.route.word.toNat ∧
      im 40 40 2 = c.route.first % 2 ^ 16 ∧ im 40 42 2 = c.route.second % 2 ^ 16 ∧
      im 40 44 2 = c.route.dropped % 2 ^ 16 ∧ im 40 46 2 = 0 ∧
      (n < 16 → im 40 (48 + 2 * n) 2 = tget 0 n c.route.sent % 2 ^ 16) ∧
      (∀ ident a, c.window = some (ident, a) → im 40 80 8 = a % 2 ^ 64 ∧ im 40 88 8 = ident % 2 ^ 64) ∧
      (c.window = none → im 40 80 16 = 0) ∧ im 40 96 160 = 0) ∧
    ((∀ r : VReg, y.vr r = BitVec.ofNat 2048 (dfield l (256 * r.toNat) 256)) ∧
      (∀ r : XReg, r ≠ 0 → y.xr r = BitVec.ofNat 64 (dfield l (8192 + 8 * r.toNat) 8)) ∧
      (∀ r : XReg, r ≠ 0 → y.pr r = (dfield l 8704 8).testBit r.toNat) ∧
      (∀ r : MReg, r ≠ 0 → y.mr r = BitVec.ofNat 64 (dfield l (8712 + 8 * r.toNat) 8)) ∧
      (n < 8 → tget 0 n y.d = BitVec.ofNat 128 (dfield l (8960 + 16 * n) 16)) ∧
      y.stat.rndseed = BitVec.ofNat 64 (dfield l 9104 8) ∧ y.tr.eaddr = BitVec.ofNat 64 (dfield l 9144 8)) ∧
    (me.sys = true → s.ctxloadFault ea = none → me.share.held = false →
      s.readVA (unitOf k) none ea.toNat 10496 = .ok (l, f) → ∃ t, exec (.ctxload base off) s = .next t ∧
        (∀ j, j ≠ k → t.ctx j = s.ctx j) ∧ t.me.sys = true ∧ t.me.regs = y.regs ∧ t.me.d = y.d ∧ t.me.stat = y.stat ∧
        t.me.tr = y.tr ∧ t.me.evt = y.evt ∧ t.me.streams = y.streams ∧ (t.core s.myCore).code = [] ∧
        t.dram = s.dram ∧ t.spad = s.spad)

/-- A context loaded from the image of another has its registers: scalars, predicates, masks, vectors and descriptors,
and the status and trap registers in their writable fields, with the event latch (R346, R347). -/
def Obligations.ImageRestoresContext : Prop :=
  ∀ c e : Ctx,
    let y := e.ofImage c.image
    (∀ r, y.xr r = c.xr r) ∧ (∀ r, y.pr r = c.pr r) ∧ (∀ r, y.mr r = c.mr r) ∧ (∀ r, y.vr r = c.vr r) ∧
      (∀ i, i < 8 → tget 0 i y.d = tget 0 i c.d) ∧ y.evt = c.evt ∧
      y.stat = { fpstat := c.stat.fpstat &&& 0x3F, optstat := c.stat.optstat &&& 0xFFFFFFFF0001,
                 rndseed := c.stat.rndseed, rndctr := c.stat.rndctr } ∧
      y.tr = { cause := c.tr.cause &&& 0x7FF, epc := c.tr.epc &&& 0x807FFFFFFFFFFFFF, emask := c.tr.emask &&& 0x3F,
               eaddr := c.tr.eaddr, einfo := c.tr.einfo }

/-- A code block that arrives joins the code buffer and wakes its context, and one that cannot be read leaves its fault. A
parked context wakes once a condition clears, or a WFE's timeout passes, or a fault is pending, and one that parked on EVT,
a handle or a window that is set, changes or opens on that very clk is evaluated again on it; the current one takes the
earliest fault, the lowest SRCE first, and the stop-token trap, which a context that is being stopped takes at once without
a bound IN stream, discards what its buffers hold. A STOP is answered 1 by a context without a share, 2 by one being
stopped, and 0 otherwise; a deferred retraining starts at its deadline, and one that is over leaves the stack idle (R24,
R91, R98, R99, R232, R278, R293, R341, R342, R349, R361). The trap of a code block that cannot be read for an uncorrectable
error is the model's choice (log 19), and so is that the wake-up is a move of its own (logs 22, 44). -/
def Obligations.IssueEvents : Prop :=
  ∀ (s : State) (k : CtxKey) (victim : BitVec 5) (b c a idx t0 : Nat) (l : List Byte) (f : Bool) (conds : List ParkCond)
    (p : BitVec 55) (w : BitVec 32) (q : StopReq) (stack : BitVec 3) (saves : List (CtxKey × Nat)) (d0 old : Nat) (ref : BitVec 2),
    let n := keyCore k
    let x := s.ctx k
    let woken : State → Prop := fun t => t = { s with ctxs := t.ctxs, cores := t.cores } ∧
      (∀ j, j ≠ k → t.ctx j = s.ctx j) ∧ t.ctx k = { x with run := .ready, waking := true } ∧
      ((s.core n).cur = none → (t.core n).cur = some (keyCtx k))
    let current := x.run = .ready ∧ (s.core n).cur = some (keyCtx k) ∧ x.waking = false
    let target := s.ctx q.target
    let rate := tget .idle stack.toNat s.rates
    let sets : State → RateState → Nat → Prop := fun t y v => t = { s with rates := t.rates, ctl := t.ctl } ∧
      t.ctl = { s.ctl with ratestat := t.ctl.ratestat } ∧ t.ctl.ratestat.toNat / 4 ^ stack.toNat % 4 = v ∧
      ∀ j, tget .idle j t.rates = if j = stack.toNat then y else tget .idle j s.rates
    (x.run = .fetchWait b → s.readVA (unitOf k) none (256 * b) 256 = .ok (l, f) →
      ∃ t, exec (.codeBlockArrival k victim) s = .next t ∧ KeepsData s t ∧ (t.ctx k).run = .ready ∧
        (t.ctx k).pc = x.pc ∧ (t.ctx k).fetchFault = none ∧
        { block := b, data := BitVec.ofNat 2048 (ofBytes l) } ∈ (t.core n).code) ∧
    (x.run = .fetchWait b → s.readVA (unitOf k) none (256 * b) 256 = .error (c, a) →
      ∃ t, exec (.codeBlockArrival k victim) s = .next t ∧ KeepsData s t ∧ (t.ctx k).run = .ready ∧
        (t.ctx k).fetchFault = some (256 * b, if c = 14 then 14 else 6) ∧ (t.core n).code = (s.core n).code) ∧
    (x.run = .parked conds → (∀ y ∈ (s.core n).was, y.1 ≠ s.clk) →
      ((∃ c ∈ conds, s.condClear k c = true) ∨ x.trapDue s.clk = true) → ∃ t, exec (.contextWake k) s = .next t ∧ woken t) ∧
    (x.run = .parked conds → (s.core n).was = some (s.clk, keyCtx k, ref) →
      (∃ c ∈ conds, c.early = true ∧ s.condClear k c = true) →
      ∃ t, exec (.contextWake k) s = .next t ∧ t = { s with ctxs := t.ctxs, cores := t.cores } ∧
        t.ctx k = { x with run := .ready } ∧ (∀ j, j ≠ k → t.ctx j = s.ctx j) ∧ (∀ m, m ≠ n → t.core m = s.core m) ∧
        t.core n = { s.core n with cur := some (keyCtx k), ref := ref, woke := none, was := none, nextIssue := s.clk }) ∧
    (x.run = .parked conds → x.wfeRec = some (p, t0) → .event w ∈ conds → w ≠ 0 → t0 + w.toNat ≤ s.clk →
      ∃ t, exec (.wfeTimeout k) s = .next t ∧ woken t) ∧
    (x.run = .parked conds → x.sys = false → x.pend ≠ [] → ∃ t, exec (.engineFaultDelivery k) s = .next t ∧ woken t) ∧
    (current → x.sys = false → x.pend ≠ [] → (∀ g ∈ x.pend, g.info.code < 256) →
      ∃ t g, exec (.engineFaultDelivery k) s = .next t ∧ g ∈ x.pend ∧
        (∀ h ∈ x.pend, g.clk < h.clk ∨ g.clk = h.clk ∧ g.srce ≤ h.srce) ∧
        Trapped (s.mapCtx k fun y => { y with pend := x.pend.erase g }) t k
          { cause := BitVec.ofNat 64 (g.info.code + 256 + if g.held.isSome then 1024 else 0)
            epc := BitVec.ofNat 64 x.pc.toNat, emask := 0, eaddr := g.info.eaddr, einfo := g.info.einfo }
          g.held g.info.code) ∧
    (current → x.sys = false → x.stopDue = true → x.pend = [] → x.overrunDue s.clk = false →
      ∃ t, exec (.stopTokenTrap k) s = .next t ∧ (∀ j, (t.ctx j).regs = (s.ctx j).regs) ∧ t.dram = s.dram ∧
        t.spad = s.spad ∧ (t.ctx k).sys = true ∧ (t.ctx k).stop = .trapped ∧ (t.ctx k).stopTrap = false ∧
        (t.ctx k).pc = BitVec.ofNat 55 (s.ctl.syscode.toNat / 2 + 16 * 18) ∧
        (t.ctx k).tr = { cause := BitVec.ofNat 64 (18 + 512), epc := BitVec.ofNat 64 x.pc.toNat } ∧
        ∀ i, ((t.ctx k).stream i).kind = 0 → ((t.ctx k).stream i).filled = []) ∧
    (s.stops[idx]? = some q → target.share.held = false → ∃ t, exec (.stopArrival idx) s = .next t ∧
      t = { s with ctxs := t.ctxs, stops := s.stops.eraseIdx idx } ∧ Replied s t q.key q.xd 1) ∧
    (s.stops[idx]? = some q → target.share.held = true → target.stop ≠ .none →
      ∃ t, exec (.stopArrival idx) s = .next t ∧ t = { s with ctxs := t.ctxs, stops := s.stops.eraseIdx idx } ∧
        Replied s t q.key q.xd 2) ∧
    (s.stops[idx]? = some q → target.share.held = true → target.stop = .none → ∃ t, exec (.stopArrival idx) s = .next t ∧
      KeepsData s t ∧ t.stops = s.stops.eraseIdx idx ∧ (t.ctx q.key).replies = (s.ctx q.key).replies ++ [(q.xd, 0)] ∧
      (t.ctx q.target).stop = (if target.sys then .requested else .running) ∧
      ∀ j, j ≠ q.key → j ≠ q.target → t.ctx j = s.ctx j) ∧
    (rate = .deferred saves t0 d0 old → t0 ≤ s.clk → ∃ t, exec (.saveDeadline stack) s = .next t ∧
      sets t (.retraining (s.clk + 1410000) d0 old) 2) ∧
    (rate = .retraining t0 d0 old → t0 ≤ s.clk → ∃ t, exec (.stackRetrainDone stack) s = .next t ∧ sets t .idle 0)

/-- The governor sets the duty every 940 clk and counts the intervals below 64; PTROOT takes its field, and STKRATE, while
Norlys does not hold it and no save has a deadline, retrains each stack whose rate changes; the control registers, EVBASE
among them, and PERIOD take what the host writes, and so do BASE and QSIZE of a stopped queue, where QSIZE is a power of two
from 16 to 65,536 and, where its pointers then lie further apart, overruns it; a queue that is not stopped refuses both;
PCAP takes a value of 600 to 1,800 that Norlys does not hold back. A change of FUNCREADY raises its event; a group bitmap
that would put a core into a fifth group is refused as a whole; what Norlys writes, PCAP, the data rates or a reset of the
module, a die or a port, takes effect and is held until it releases it; a function that moves on its own has the firmware
that it runs measured before it is ready (R358); a rate request that finds saves with deadlines is deferred to the latest,
or refused as BUSY where it lies more than 10 ms ahead, and retrains at once where it has passed; Norlys reads PSTAT,
FUNCREADY, the power and the temperatures, the last two as free values (log 63); a cluster of a die that is up becomes
ready, or fails and its die with it; and a host read of a register gives its value, and zero of QCTL (R7, R202, R268, R273,
R351, R353, R354, R356, R357, R359, R361). The numbers of the events (log 33), which function runs which stage of firmware
and that FUNCREADY lies at 0x80000 (log 17), that a write of BASE or QSIZE clears WHY (log 35), what a second rate request
meets (log 39), and when a single cluster becomes ready or fails (log 48), are the model's choice. -/
def Obligations.Platform : Prop :=
  ∀ (s : State) (duty : BitVec 7) (val : Word) (bit : BitVec 6) (up : Bool) (g : BitVec 8) (w : BitVec 6) (q : BitVec 7)
    (d p : BitVec 3) (c : NorlysCtl) (n dl cl : Nat),
    let ctl := s.ctl
    let D := duty.toNat
    let count := ctl.pstat.toNat / 2 ^ 32 % 2 ^ 32
    let rateOf : Word → Nat → Nat := fun v n => v.toNat / 4 ^ n % 4
    let groups : Nat → List Nat := fun i => (s.coreGroups (BitVec.ofNat 12 (64 * w.toNat + i))).filter (· != g.toNat)
    let retrains : State → Prop := fun t =>
      t.ctl = { ctl with stkrate := t.ctl.stkrate, ratestat := t.ctl.ratestat } ∧ ∀ n, n < 8 →
        if rateOf val n = 3 ∨ rateOf val n = rateOf ctl.stkrate n
        then rateOf t.ctl.stkrate n = rateOf ctl.stkrate n ∧ tget .idle n t.rates = tget .idle n s.rates
        else rateOf t.ctl.stkrate n = rateOf val n ∧
          ((∃ l c d0 old, tget .idle n s.rates = .deferred l c d0 old ∧ tget .idle n t.rates = tget .idle n s.rates) ∨
            tget .idle n t.rates = .retraining (s.clk + 1410000) s.clk (rateOf ctl.stkrate n))
    let legal := 600 ≤ val.toNat ∧ val.toNat ≤ 1800
    let size := val.toNat % 2 ^ 17
    let sized := ∃ i, i < 13 ∧ size = 2 ^ (4 + i)
    let saves : CtxKey → Nat → Prop := fun k e => ∃ v, (s.ctx k).save = some v ∧ n ∈ v.onStacks ∧ v.deadline = some e
    let kept := if c ∈ s.norlys then s.norlys else s.norlys ++ [c]
    let b := bit.toNat
    let own := (8 ≤ b ∧ b < 28) ∨ (40 ≤ b ∧ b < 44) ∨
      (48 ≤ b ∧ b < 56 ∧ (up = true → (s.die (b - 48)).boot = some true)) ∨
      (b < 8 ∧ (up = true → (s.die b).boot = some true ∧ ∀ i, i < 32 → tget false (32 * b + i) s.clReady = true))
    let pstat := BitVec.ofNat 64 (D + 2 ^ 32 * if D < 64 then min (count + 1) (2 ^ 32 - 1) else count)
    (s.clk % 940 = 0 → s.governed ≠ some s.clk → D ≤ 64 → exec (.governorUpdate duty) s =
      .next { s with duty := D, governed := some s.clk, ctl := { ctl with pstat := pstat } }) ∧
    exec (.ptrootWrite val) s = .next { s with ctl := { ctl with ptroot := val &&& 0xFFFFFF8000 } } ∧
    (.stkrate ∈ s.norlys → exec (.stkrateWrite val) s = .next s) ∧
    (.stkrate ∉ s.norlys → (∀ k, (s.ctx k).save = none) → ∃ t, exec (.stkrateWrite val) s = .next t ∧
      t = { s with ctl := t.ctl, rates := t.rates } ∧ retrains t) ∧
    (c = .stkrate → (∀ k, (s.ctx k).save = none) → ∃ t, exec (.norlysControlWrite c val) s = .next t ∧
      t = { s with ctl := t.ctl, rates := t.rates, norlys := kept } ∧ retrains t) ∧
    (c = .moduleReset → exec (.norlysControlWrite c val) s = exec .moduleReset { s with norlys := kept }) ∧
    (c = .dieReset d → exec (.norlysControlWrite c val) s = exec (.dieReset d) { s with norlys := kept }) ∧
    (c = .portReset p → exec (.norlysControlWrite c val) s = exec (.linkPortReset p) { s with norlys := kept }) ∧
    (.stkrate ∉ s.norlys → n < 8 → rateOf val n ≠ 3 → rateOf val n ≠ rateOf ctl.stkrate n →
      (∀ i, i < 8 → i ≠ n → rateOf val i = rateOf ctl.stkrate i) →
      ((∃ k, saves k dl ∧ s.clk + 9400000 < dl) → ∃ t, exec (.stkrateWrite val) s = .next t ∧
        t = { s with ctl := { ctl with ratestat := t.ctl.ratestat } } ∧ rateOf t.ctl.ratestat n = 3) ∧
      ((∃ k, saves k dl) → (∀ k e, saves k e → e ≤ dl) → dl ≤ s.clk → (∀ l c d0 old, tget .idle n s.rates ≠ .deferred l c d0 old) →
        ∃ t, exec (.stkrateWrite val) s = .next t ∧ rateOf t.ctl.stkrate n = rateOf val n ∧ rateOf t.ctl.ratestat n = 2 ∧
          tget .idle n t.rates = .retraining (s.clk + 1410000) s.clk (rateOf ctl.stkrate n)) ∧
      ((∃ k, saves k dl) → (∀ k e, saves k e → e ≤ dl) → s.clk < dl → dl ≤ s.clk + 9400000 → tget .idle n s.rates = .idle →
        ∃ t l, exec (.stkrateWrite val) s = .next t ∧
          (∀ k c, (k, c) ∈ l ↔ ∃ e v, saves k e ∧ (s.ctx k).save = some v ∧ v.at_ = c) ∧
          tget .idle n t.rates = .deferred l dl s.clk (rateOf ctl.stkrate n) ∧ rateOf t.ctl.stkrate n = rateOf val n ∧
          rateOf t.ctl.ratestat n = 1)) ∧
    (s.powered = true → cl < 256 → tget false cl s.clReady = false → (s.die (cl / 32)).boot = some true →
      ∃ t, s.minor (.cluster cl true) = .next t ∧ UnitOnly s t ∧ t.funcready = s.funcready ∧ Raised s t 14 cl 1 ∧
        ∀ i, tget false i t.clReady = if i = cl then true else tget false i s.clReady) ∧
    (s.powered = true → cl < 256 → tget false cl s.clReady = true → ∃ t, s.minor (.cluster cl false) = .next t ∧
      UnitOnly s t ∧ t.funcready.getLsbD (cl / 32) = false ∧
      ∀ i, tget false i t.clReady = if i = cl then false else tget false i s.clReady) ∧
    (s.powered = true → s.isMeasured 8 0 = true → ∀ r, s.minor (.norlysRead r) = .next { s with
      fresh := s.fresh + 1, norlysDone := s.norlysDone ++ [(r, match r with
        | .temperature i => Config.temperature i s.fresh | .power => Config.powerDraw s.fresh
        | .pstat => ctl.pstat | .funcready => s.funcready)] }) ∧
    (s.isMeasured 8 0 = false → s.powered = true → ∀ r, s.minor (.norlysRead r) = .refused .notEnabled) ∧
    (s.readBar0 0x000 = some ctl.ptroot ∧ s.readBar0 0x008 = some ctl.syscode ∧ s.readBar0 0x028 = some ctl.pstat ∧
      s.readBar0 0x048 = some ctl.ratestat ∧ s.readBar0 0x80000 = some s.funcready ∧ s.readBar0 0x2 = none ∧
      s.readBar0 (0x10000 + 64 * q.toNat + 0x20) = some (BitVec.ofNat 64 ((s.queue q.toNat).st +
        2 ^ 8 * (s.queue q.toNat).why.toNat + 2 ^ 40 * (s.queue q.toNat).errc)) ∧
      s.readBar0 (0x10000 + 64 * q.toNat + 0x28) = some 0 ∧
      s.readBar0 (0x20000 + 512 * g.toNat + 8 * w.toNat) = some (tget 0 (64 * g.toNat + w.toNat) s.groupMap)) ∧
    exec (.registerWrite 0x008 val) s = .next { s with ctl := { ctl with syscode := val } } ∧
    exec (.registerWrite 0x010 val) s = .next { s with ctl := { ctl with sysdict := val } } ∧
    exec (.registerWrite 0x018 val) s = .next { s with ctl := { ctl with savedl := val } } ∧
    (.pcap ∉ s.norlys → legal → exec (.registerWrite 0x020 val) s = .next { s with ctl := { ctl with pcap := val } }) ∧
    (.pcap ∈ s.norlys ∨ ¬ legal → exec (.registerWrite 0x020 val) s = .next s) ∧
    exec (.registerWrite 0x030 val) s = .next { s with ctl := { ctl with evbase := val } } ∧
    exec (.registerWrite 0x038 val) s = .next { s with ctl := { ctl with evctl := val &&& 0xFFFFFFFFFFFF } } ∧
    (∃ t, exec (.registerWrite (BitVec.ofNat 24 (0x100 + 8 * d.toNat)) val) s = .next t ∧ OnlyDie s t d.toNat ∧
      t.die d.toNat = { s.die d.toNat with period := val }) ∧
    ((s.queue q.toNat).st = 3 → ∃ t, exec (.registerWrite (BitVec.ofNat 24 (0x10000 + 64 * q.toNat)) val) s = .next t ∧
      t = { s with queues := t.queues } ∧ ∀ i, t.queue i = if i = q.toNat
        then { s.queue i with base := (val &&& 0xFFFFFFFFFFFFC0).toNat, need := 0, why := 0 } else s.queue i) ∧
    ((s.queue q.toNat).st = 3 → sized → ((s.queue q.toNat).wp - (s.queue q.toNat).rp).toNat ≤ size →
      ∃ t, exec (.registerWrite (BitVec.ofNat 24 (0x10000 + 64 * q.toNat + 8)) val) s = .next t ∧
        t = { s with queues := t.queues } ∧ ∀ i, t.queue i = if i = q.toNat
          then { s.queue i with size := size, need := 0, why := 0 } else s.queue i) ∧
    ((s.queue q.toNat).st = 3 → sized → size < ((s.queue q.toNat).wp - (s.queue q.toNat).rp).toNat →
      ∃ t, exec (.registerWrite (BitVec.ofNat 24 (0x10000 + 64 * q.toNat + 8)) val) s = .next t ∧
        t = { s with queues := t.queues, events := t.events } ∧ Raised s t 4 q.toNat 0 ∧ ∀ i, t.queue i = if i = q.toNat
          then { s.queue i with size := size, need := 0, why := 0, st := 2, rp := (s.queue i).wp } else s.queue i) ∧
    ((s.queue q.toNat).st ≠ 3 → exec (.registerWrite (BitVec.ofNat 24 (0x10000 + 64 * q.toNat)) val) s = .next s) ∧
    ((s.queue q.toNat).st ≠ 3 ∨ ¬ sized →
      exec (.registerWrite (BitVec.ofNat 24 (0x10000 + 64 * q.toNat + 8)) val) s = .next s) ∧
    (own → s.funcready.getLsbD bit.toNat ≠ up →
      ∃ t, exec (.functionReady bit up) s = .next t ∧ UnitOnly s t ∧ Raised s t 7 bit.toNat (if up then 1 else 0) ∧
        (∀ i, i < 64 → t.funcready.getLsbD i = if i = bit.toNat then up else s.funcready.getLsbD i) ∧
        (up = true → ∀ i ∈ firmwareOf bit.toNat, ∃ g, (i, g) ∈ t.measured)) ∧
    ((∀ i, i < 64 → val.getLsbD i = true → (groups i).length < 4) → ∃ t, exec (.groupBitmapWrite g w val) s = .next t ∧
      t = { s with groupMap := t.groupMap } ∧ ∀ i, tget 0 i t.groupMap =
        if i = 64 * g.toNat + w.toNat then val else tget 0 i s.groupMap) ∧
    ((∃ i, i < 64 ∧ val.getLsbD i = true ∧ 4 ≤ (groups i).length) → exec (.groupBitmapWrite g w val) s = .next s) ∧
    (∃ t, exec (.groupCtxmaskWrite g val) s = .next t ∧ t = { s with groupMask := t.groupMask } ∧
      ∀ i, tget 0 i t.groupMask = if i = g.toNat then val.setWidth 4 else tget 0 i s.groupMask) ∧
    (c = .pcap → legal →
      exec (.norlysControlWrite c val) s = .next { s with ctl := { ctl with pcap := val }, norlys := kept }) ∧
    (c = .pcap → ¬ legal → exec (.norlysControlWrite c val) s = .next { s with norlys := kept }) ∧
    (c ∈ s.norlys → exec (.norlysControlRelease c) s = .next { s with norlys := s.norlys.filter fun x => x != c })

/-- Host accesses complete in order, behind those that wait: a read answers its bytes, with Completer Abort where a block
cannot be read and Unsupported Request where a translation faults; a write of one block changes its bytes and no other, and
one of which any part faults changes none, with one event. A die that was reset comes up with its system dictionary, the
stages of firmware having been measured (R358; log 17), or stays down with an event; a reset of a die whose contexts hold no
share clears its contexts, scratchpads and task table and no other die's, and the reference of a core whose contexts were
idle stands; a reset of a port that no message or collective uses retrains it; power brings the reset state (R14, R17, R97,
R338, R355, R360). A share that had been dealt to a context of the die and had not started ends as one that began at its
deal (R265, R279, R360): its chunk stays open without an owner, to be dealt again, or MODE NONE aborts its task; that it
begins so is the model's reading (log 26). That host accesses are translated and read by the I/O die's unit, number 8, is
the model's choice (log 25), and so are what a module reset and a loss of power keep (log 18), the numbers of the events
(log 33), the order of a die's bring-up (log 48), what the units do for a die in reset (log 31) and messages that wait for a
port in reset (log 32). -/
def Obligations.HostAndResets : Prop :=
  ∀ (s : State) (va : Word) (len e c a : Nat) (data l : List Byte) (f : Bool) (die : BitVec 3)
    (dict : List (BitVec 384)) (port : BitVec 3),
    let d := die.toNat
    let p := port.toNat
    let first := pteByte e va.toNat
    let answers : State → Bar2Reply → Prop := fun t r => t = { s with
      tlb := t.tlb, bar2Done := s.bar2Done ++ [r], events := t.events }
    let mine : CtxKey → Prop := fun k => coreDie (keyCore k) = d
    (s.bar2 = [] → s.readVA 8 none va.toNat len = .ok (l, f) → ∃ t, exec (.bar2Read va len) s = .next t ∧
      answers t (.data l) ∧ t.events = s.events) ∧
    (s.bar2 = [] → s.readVA 8 none va.toNat len = .error (c, a) → ∃ t, exec (.bar2Read va len) s = .next t ∧
      answers t (if c = 14 then .abort else .unsupported) ∧ Raised s t 9 c (a % 2 ^ 32)) ∧
    (s.bar2 ≠ [] → exec (.bar2Read va len) s = .next { s with bar2 := s.bar2 ++ [.read va.toNat len] } ∧
      exec (.bar2Write va data) s = .next { s with bar2 := s.bar2 ++ [.write va.toNat data] }) ∧
    (s.bar2 = [] → data ≠ [] → va.toNat % 256 + data.length ≤ 256 → s.translate 8 va.toNat .write = .ok e →
      s.pageMig 8 (va.toNat / 2 ^ 21) = false → s.migHeld = [] → s.blkBad (first / 256) = false →
      tget false (first / 256) s.dram.dead = false → ∃ t, exec (.bar2Write va data) s = .next t ∧
        t = { s with tlb := t.tlb, dram := t.dram } ∧ ∀ j, tget 0 j t.dram.bytes =
          if first ≤ j ∧ j < first + data.length then data.getD (j - first) 0 else tget 0 j s.dram.bytes) ∧
    (s.bar2 = [] → s.writeFault 8 va.toNat data.length = some (c, a) → ∃ t, exec (.bar2Write va data) s = .next t ∧
      t = { s with tlb := t.tlb, events := t.events } ∧ Raised s t 9 c (a % 2 ^ 32)) ∧
    ((s.die d).boot = none → s.sysImage d = some dict → ∃ t, exec (.dieBringup die) s = .next t ∧ KeepsData s t ∧
      (t.die d).sysDict = dict ∧ t.funcready.getLsbD d = true ∧ t.funcready.getLsbD (48 + d) = true ∧
      (∀ i, i < 5 → ∃ g, (i, g) ∈ t.measured ∧ (i = 4 → g = s.stageDigest d 4)) ∧
      ∀ i, i < 32 → tget false (32 * d + i) t.clReady = true) ∧
    ((s.die d).boot = none → s.sysImage d = none → ∃ t, exec (.dieBringup die) s = .next t ∧ UnitOnly s t ∧
      Raised s t 15 d 0 ∧ t.funcready = s.funcready ∧ (∀ i, i ≠ d → t.die i = s.die i) ∧
      t.die d = { s.die d with boot := some false }) ∧
    ((∀ k, mine k → (s.ctx k).share.held = false ∧ (s.ctx k).share.deal = none) → (∀ n ∈ s.cores, n.2.msgs = []) →
      ∃ t, exec (.dieReset die) s = .next t ∧ (∀ k, mine k → t.ctx k = {}) ∧
        (∀ k, ¬ mine k → t.ctx k =
          { s.ctx k with arrived := (t.ctx k).arrived, arrivedSys := (t.ctx k).arrivedSys }) ∧
        (s.episodes = [] → ∀ k, ¬ mine k → t.ctx k = s.ctx k) ∧
        t.dram = s.dram ∧ (∀ j, tget 0 j t.spad.bytes =
          if j / (512 * 0x60000) = d then 0 else tget 0 j s.spad.bytes) ∧
        (∀ k, k < 4096 → t.taskAt d k = { gen := (s.taskAt d k).gen + 1 }) ∧ (t.die d).sysDict = [] ∧
        (t.die d).boot = none ∧ t.funcready.getLsbD d = false ∧ t.funcready.getLsbD (48 + d) = false) ∧
    (∀ n x, (∀ k, keyCore k = n → (s.ctx k).run = .idle) → (s.resetCore n x).ref = x.ref) ∧
    (∀ (k : CtxKey) (y : Deal) (m i : Nat) (x : Task) (j : Card) (z : JEntry), (s.ctx k).share.deal = some y →
      s.findTask y.task = some (m, i, x) → x.job = some j → x.open_.find? (fun w => w.idx == y.entry) = some z →
      x.st = .running → 1 < x.shares → let t := s.undeal k
      (t.ctx k).share.deal = none ∧ (t.taskAt m i).shares = x.shares - 1 ∧ (t.taskAt m i).st = .running ∧
        (t.taskAt m i).open_ = x.open_.map (fun w => if w.idx = z.idx then { w with owner := none } else w) ∧
        (t.taskAt m i).abort = (x.abort || decide (j.mode = 2))) ∧
    (s.torus.porten.getLsbD p = false → exec (.linkPortReset port) s = .next s) ∧
    (s.torus.porten.getLsbD p = true → s.out = [] → (∀ r, r < 4 → s.ringSlots r = []) →
      ∃ t, exec (.linkPortReset port) s = .next t ∧ UnitOnly s t ∧ t.funcready.getLsbD (32 + p) = false ∧
        tget 0 p t.torus.since = s.clk ∧ ∀ q, q < 8 → t.torus.port q = if q = p then 1 else s.torus.port q) ∧
    exec .moduleReset s = .next { State.reset with
      agenda := s.agenda, fresh := s.fresh, powered := s.powered, norlys := s.norlys
      dram := { s.dram with hbm := [] } } ∧
    (s.powered = false → exec .powerInput s = .next { State.reset with agenda := s.agenda, fresh := s.fresh }) ∧
    (s.powered = true → exec .powerInputLoss s =
      .next { State.reset with agenda := s.agenda, fresh := s.fresh, powered := false })

/-- A measurement slot from 5 up becomes the SHA-384 digest of itself and of what it is extended with, and no other slot
changes; a firmware stage that has not been measured is measured into its own slot from 0 to 4; each SPDM request is
answered in order, GET_MEASUREMENTS with the sixteen slots. The bodies and the digests of the firmware are free values, so
the statement holds for each; SHA-384 itself, and the bytes of stage 4, come from outside the spec (R358, log 17). -/
def Obligations.MeasurementsAndSpdm : Prop :=
  ∀ (s : State) (slot : BitVec 4) (digest : BitVec 384),
    let answer : SpdmReq → List (BitVec 384) → State := fun q l => { s with
      spdm := s.spdm ++ [{ req := q, slots := l, body := Config.spdmBody s.fresh }], fresh := s.fresh + 1 }
    (5 ≤ slot.toNat → ∃ t, exec (.measurementExtend slot digest) s = .next t ∧ t = { s with measures := t.measures } ∧
      ∀ i, tget 0 i t.measures =
        if i = slot.toNat then extendSlot (tget 0 i s.measures) digest else tget 0 i s.measures) ∧
    (∀ a b, extendSlot a b = BitVec.ofNat 384 (ofBytes (sha384 (toBytes 48 a.toNat ++ toBytes 48 b.toNat)))) ∧
    (s.powered = true → slot.toNat < 5 → s.isMeasured 8 slot.toNat = false →
      ∃ t b, s.minor (.measure slot.toNat) = .next t ∧ b = s.stageDigest 8 slot.toNat ∧
      t = { s with measures := t.measures, measured := s.measured ++ [(slot.toNat, b)] } ∧
      (slot.toNat < 4 → b = BitVec.ofNat 384 (Config.firmwareDigest slot.toNat)) ∧ ∀ i, tget 0 i t.measures =
        if i = slot.toNat then extendSlot (tget 0 i s.measures) b else tget 0 i s.measures) ∧
    exec .getVersion s = .next (answer .getVersion []) ∧
    exec .getCapabilities s = .next (answer .getCapabilities []) ∧
    exec .negotiateAlgorithms s = .next (answer .negotiateAlgorithms []) ∧
    exec .getDigests s = .next (answer .getDigests []) ∧
    exec .getCertificate s = .next (answer .getCertificate []) ∧
    exec .challenge s = .next (answer .challenge []) ∧
    ∃ l, l.length = 16 ∧ (∀ i, i < 16 → l.getD i 0 = tget 0 i s.measures) ∧
      exec .getMeasurements s = .next (answer .getMeasurements l)

/-! ## The whole part -/

/-- After module reset: every context is idle in system mode, holds no share, has no pending event and has its trap and
status registers at zero; the streams are unbound; both planes of each array are in weight mode with sets of zeros in dense
BF16, exponents of 0x7F and scales of one, the tiles zero with scales of one, the gradient plane, the codebook, the grid and
the counters zero, and the queues empty; the handles are FREE, the clusters unfused, the scratchpads zero, the task slots
free with GEN 1; the control and torus registers hold the values of their tables; the queues are stopped; nothing is ready
and no die is up; context 3 is the reference of each core; the groups are empty and the measurement slots zero; version 0 of
each Clasp stage is CURRENT; and the state is safe (R68, R96, R97, R130, R175, R230, R257, R339, R351 to R354, R357, R358,
R362). -/
def Obligations.ResetState : Prop :=
  let s := State.reset
  (∀ k, s.ctx k = { (s.ctx k) with
    sys := true, evt := false, run := .idle, tr := { cause := 0, epc := 0, emask := 0, eaddr := 0, einfo := 0 }, d := []
    stat := { fpstat := 0, optstat := 0, rndseed := 0, rndctr := 0 }, streams := [], share := {}
    budget := { remain := 0, counting := false, off := true } }) ∧
  (∀ n, (s.core n).cur = none ∧ (s.core n).ref = 3 ∧ (s.core n).code = [] ∧ (∀ h, (s.handle n h).st = .free) ∧ (s.arr n).act = 0 ∧
    (s.arr n).knctl = 0 ∧ (∀ i, tget 0 i (s.arr n).codebook = 0 ∧ tget 0 i (s.arr n).grad = 0 ∧ tget 0 i (s.arr n).kn = 0 ∧
      tget 0 i (s.arr n).counters = 0) ∧ (∀ q, (s.arr n).queue q = []) ∧
    (∀ p i, ((s.arr n).plane p).spline = false ∧ let x := tget ({} : WeightSet) i ((s.arr n).plane p).sets
      x.fmt = .bf16 ∧ x.sparse = false ∧ x.sw = 0x3F800000 ∧ ∀ j, tget 0 j x.cells = 0 ∧ tget 0x7F j x.xw = 0x7F) ∧
    ∀ a i, tget 0 i ((s.arr n).tile a).t = 0 ∧ tget one32 i ((s.arr n).tile a).sa = 0x3F800000 ∧
      tget one32 i ((s.arr n).tile a).sb = 0x3F800000) ∧
  (∀ i, tget 0 i s.spad.bytes = 0 ∧ tget false i s.spad.fused = false) ∧
  (∀ d k, (s.taskAt d k).st = .free ∧ (s.taskAt d k).gen = 1) ∧
  (∀ d, (s.die d).period = 0 ∧ (s.die d).boot = none) ∧ (∀ i, tget 0 i s.measures = 0 ∧ tget 0 i s.groupMap = 0) ∧
  s.ctl = { ptroot := 0, syscode := 0, sysdict := 0, savedl := 9400000, pcap := 1800, pstat := 0, evbase := 0, evctl := 0,
            stkrate := 0, ratestat := 0 } ∧
  s.torus.dims = 0x10101 ∧ s.torus.coord = 0 ∧ s.torus.porten = 0 ∧ s.torus.portstat = 0 ∧ s.torus.cfgerr = 0 ∧
  (∀ q, (s.queue q).st = 3 ∧ (s.queue q).base = 0 ∧ (s.queue q).size = 16 ∧ (s.queue q).rp = 0 ∧ (s.queue q).errc = 0) ∧
  s.funcready = 0 ∧ (∀ c, tget false c s.clReady = false) ∧
  (∀ v, (s.stage v).vers = [(0, .current)]) ∧ s.clk = 0 ∧ s.migOpen = [] ∧ s.safe = true

/-- Every step of the part keeps a safe state safe: the memories stay in their canonical form, the dimensions and
coordinates stay legal together, the power cap stays from 600 to 1,800 W, and the duty at or below 64/64 (R351, R352, R356).
-/
def Obligations.StepKeepsSafe : Prop :=
  ∀ s t : State, s.safe = true → step s = .next t → t.safe = true

/-- A core that may issue evaluates its current context's bundle, or the context waits for a block of code. A step that
issues a bundle of one instruction runs that instruction: a slot that is not enabled only moves the PC on; one that waits
for a reply, or behind an acquire (R186), changes nothing; one that is ready, and whose messages find room (R183), has, on
the state with the PC moved on, the effect of exec; one that faults traps, and one that blocks parks, as exec does on the
latched state. Every slot instruction is executed by the parts that the issue of a bundle uses (R33, R40 to R42, R46, R88,
R91, R186). -/
def Obligations.StepRunsDecoded : Prop :=
  (∀ (i : Instr) (s : State), isEvent i = false → exec i s = (semOf i).run s) ∧
  (∀ (s : State) (k : CtxKey), (s.core (keyCore k)).cur = some (keyCtx k) → (s.core (keyCore k)).nextIssue ≤ s.clk →
    (s.ctx k).run = .ready → 64 ≤ s.duty → ∃ t, exec (.bundleIssue (keyCore k)) s = .next t ∧
      ∀ w, (s.ctx k).trapDue s.clk = false → s.migWaits k = false → (s.ctx k).waking = false → s.fetch k = .wait w →
        KeepsData s t ∧ (t.ctx k).run = .fetchWait w ∧ (t.ctx k).pc = (s.ctx k).pc) ∧
  ∀ (s : State) (n : CoreNo) (k : CtxKey) (b : BitVec 384) (pcn : BitVec 55) (x : SlotId) (sl : Slot) (f : TrapInfo),
    let i := sl.instr
    let L := s.atIssue n k pcn b
    let L' := L.commitSlots []
    let M : State := { L with iss := { L.iss with slot := x } }
    let runs : State → Prop := fun u => ∃ t, exec i u = .next t ∧ step s = .next { t with iss := {} }
    IssuesNext s n k b pcn → decodeBundle b = loneSlots x sl → isEvent i = false →
    illegalSlots (slotOrder.map fun y => (y, if y = x then sl else ⟨false, 0, .nop⟩)) = [] →
    L.iss.regs = (s.ctx k).regs ∧ L.iss.pcb = (s.ctx k).pc ∧ L'.me.pc = pcn ∧ L'.me.regs = (s.ctx k).regs ∧
    (slotEnabled sl (s.ctx k) = false → step s = .next { L' with iss := {} }) ∧
    (slotEnabled sl (s.ctx k) = true → (s.ctx k).hazard (portsOf i) = true → step s = .next { L with iss := s.iss }) ∧
    (slotEnabled sl (s.ctx k) = true → (s.ctx k).hazard (portsOf i) = false →
      ((semOf i).hold L = true → step s = .next { L with iss := {} }) ∧
      (L.sendStall [(x, semOf i)] = none → Ready i L → Ready i L' → runs L') ∧
      ((semOf i).hold L = false → (semOf i).hold M = false → (semOf i).fault L = some f → (semOf i).fault M = some f →
        runs M) ∧
      ((semOf i).hold L = false → (semOf i).fault L = none → (semOf i).instead L = none → (semOf i).arrive L = L →
        (semOf i).block L ≠ [] → runs L))

/-- Fetch finds a literal bundle behind an escape, its 24 words with the lowest first, and an entry of the dictionary for an
index word, and otherwise the illegal-index trap, the end-of-code trap or the reserved-word trap with the word in SR_EINFO;
a word that is not resident, the first one or a later one of a literal, makes the context wait, and traps with its address
where its block could not be read (R21, R22, R24, R27). SR_EINFO of a first word that was never read is a free value (log
19); that a later word of a literal that cannot be read gives 0xFFFF in SR_EINFO, the escape that was read, is the model's
choice (log 47). -/
def Obligations.FetchFindsBundle : Prop :=
  ∀ (s : State) (k : CtxKey) (w i a c : Nat) (b : BitVec 384),
    let pc := (s.ctx k).pc
    let n := keyCore k
    let l := s.entries k
    let q := (pc.toNat + 1 + i) % 2 ^ 55
    (s.codeWord n pc.toNat = some 0xFFFF →
      (∀ i, i < 24 → s.codeWord n ((pc.toNat + 1 + i) % 2 ^ 55) = some (b.toNat / 2 ^ (16 * i) % 2 ^ 16)) →
      s.fetch k = .bundle b (pc + 25)) ∧
    (s.codeWord n pc.toNat = some w → w < 2 ^ 15 → l[w]? = some b → s.fetch k = .bundle b (pc + 1)) ∧
    (s.codeWord n pc.toNat = some w → w < 2 ^ 15 → l.length ≤ w →
      s.fetch k = .trap { code := 3, einfo := BitVec.ofNat 64 (w + 65536 * l.length) }) ∧
    (s.codeWord n pc.toNat = some 0xFFFE → s.fetch k = .trap { code := 5, einfo := 0xFFFE }) ∧
    (s.codeWord n pc.toNat = some w → 2 ^ 15 ≤ w → w < 0xFFFE →
      s.fetch k = .trap { code := 4, einfo := BitVec.ofNat 64 w }) ∧
    (s.codeWord n pc.toNat = none → (s.ctx k).fetchFault = none → s.fetch k = .wait (pc.toNat / 128)) ∧
    (s.codeWord n pc.toNat = none → (s.ctx k).fetchFault = some (a, c) → a / 256 = pc.toNat / 128 →
      ∃ e, s.fetch k = .trap { code := c, eaddr := BitVec.ofNat 64 (2 * pc.toNat), einfo := e }) ∧
    (s.codeWord n pc.toNat = some 0xFFFF → i < 24 → s.codeWord n q = none →
      (∀ j, j < i → s.codeWord n ((pc.toNat + 1 + j) % 2 ^ 55) ≠ none) →
      ((s.ctx k).fetchFault = none → s.fetch k = .wait (q / 128)) ∧
      ((s.ctx k).fetchFault = some (a, c) → a / 256 = q / 128 →
        s.fetch k = .trap { code := c, eaddr := BitVec.ofNat 64 (2 * q), einfo := 0xFFFF }))

/-- Words that the spec writes out decode to the instructions that it gives for them (R46, R103, R137, R178 and the worked
examples). -/
def Obligations.DecodeWords : Prop :=
  decodeSlot .A 0x0040145000000100 = .ok ⟨false, 0, .addi 5 5 256⟩ ∧
  decodeSlot .A 0x00A41800FFFFFFFF = .ok ⟨false, 0, .loop 6 (BitVec.ofInt 32 (-1))⟩ ∧
  decodeSlot .B 0x00011041C0000000 = .ok ⟨false, 0, .add 4 4 7⟩ ∧
  decodeSlot .V0 0x8E040C1083000000 = .ok ⟨true, 7, .vfma .f32 3 (.v 1) (.v 2) (.v 3) 0⟩ ∧
  decodeSlot .V0 0x01C0101000000000 = .ok ⟨false, 0, .vrsum .f32 4 (.v 1) 0⟩ ∧
  decodeSlot .V1 0x01850C1000820009 = .ok ⟨false, 0, .vrotmScalar 3 (.v 1) (.v 2) 0 9⟩ ∧
  decodeSlot .M 0x0003122000000000 = .ok ⟨false, 0, .mmul 0 1 2 1 false false 0⟩ ∧
  decodeSlot .M 0x0043842000000000 = .ok ⟨false, 0, .msplg 2 2 1⟩ ∧
  decodeSlot .X 0x0001045000000100 = .ok ⟨false, 0, .ldrow 1 5 256⟩ ∧
  decodeSlot .X 0x0005_1C40_0300_0000 = .ok ⟨false, 0, .amo .add false 7 4 3 0 0 false⟩ ∧
  decodeSlot .X 0x0045_1C48_0000_0008 = .ok ⟨false, 0, .amog .add true 7 4 8⟩ ∧
  decodeSlot .X 0x0060284000000003 = .ok ⟨false, 0, .xchain 10 4 3⟩ ∧
  decodeSlot .X 0x0268240000003000 = .ok ⟨false, 1, .stashc 9 0 0x3000 false false false⟩ ∧
  decodeSlot .X 0x0087000000000005 = .ok ⟨false, 0, .gbar 5⟩ ∧
  decodeSlot .X 0x008C305000000001 = .ok ⟨false, 0, .verget 12 5 1⟩ ∧
  decodeSlot .X 0x00C01C8240000105 = .ok ⟨false, 0, .chsend true 7 8 9 5⟩ ∧
  decodeSlot .X 0x00E22C0100000000 = .ok ⟨false, 0, .sqwaitT 11 0⟩ ∧
  decodeSlot .X 0x00F1000100000000 = .ok ⟨false, 0, .eretDisc⟩ ∧
  decodeSlot .A 0x0000000000000001 = .error .reservedField ∧
  decodeSlot .A 0x01FF000000000000 = .error .reservedOpcode

/-- For every slot that accepts an instruction of the A and B slots, and every operand and guard at every value the
encoding admits, decoding the encoded word gives the slot back; and a word of the A or B slot that decodes to an
instruction other than NOP is the word that its encoding gives (R32 to R39, R47, R81 to R100). -/
def Obligations.ScalarEncodingRoundTrips : Prop :=
  ∀ (x : SlotId) (sl : Slot) (w : BitVec 64) (e : Enc), x = .A ∨ x = .B → sl.instr ≠ .nop →
    (sl.instr.wf = true → sl.instr.enc = some e → x ∈ e.slots → decodeSlot x (encodeSlot sl) = .ok sl) ∧
    (decodeSlot x w = .ok sl → sl.instr.wf = true ∧ encodeSlot sl = w)

/-- For every well-formed instruction, every slot that accepts it and every guard, decoding the encoded word gives the slot
back with every operand, and the lone instruction of a bundle is read back from the bundle (R31 to R39 and the family
encodings). -/
def Obligations.EncodingRoundTrips : Prop :=
  ∀ (x : SlotId) (sl : Slot) (e : Enc), sl.instr ≠ .nop → sl.instr.wf = true → sl.instr.enc = some e → x ∈ e.slots →
    decodeSlot x (encodeSlot sl) = .ok sl ∧
    decodeBundle (oneSlotBundle x (encodeSlot sl)) = loneSlots x sl
end

