-- ==== Sys2Proof/Laws/Tab.lean ====
section
/-! SUPPORT. Laws of tables: reading after writing, and the canonical form that every operation keeps. -/

namespace Sys2Proof.Machine

variable {α : Type}

/-! ## Reading -/

@[simp] theorem tget_nil (d : α) (k : Nat) : tget d k [] = d := rfl

theorem tget_cons (d : α) (k : Nat) (e : Nat × α) (r : Tab α) :
    tget d k (e :: r) = if e.1 = k then e.2 else tget d k r := rfl

/-- A key that no entry bears reads as the default. -/
theorem tget_of_absent (d : α) (k : Nat) (t : Tab α) (h : ∀ e ∈ t, e.1 ≠ k) : tget d k t = d := by
  induction t with
  | nil => rfl
  | cons e r ih =>
    rw [tget_cons, if_neg (h e (by simp)), ih fun x hx => h x (by simp [hx])]

/-- A first part that does not list the key is passed over. -/
theorem tget_append_right (d : α) (k : Nat) (a b : Tab α) (h : ∀ e ∈ a, e.1 ≠ k) :
    tget d k (a ++ b) = tget d k b := by
  induction a with
  | nil => rfl
  | cons e r ih =>
    rw [List.cons_append, tget_cons, if_neg (h e (by simp)), ih fun x hx => h x (by simp [hx])]

/-- A last part that does not list the key adds nothing. -/
theorem tget_append_left (d : α) (k : Nat) (a b : Tab α) (h : ∀ e ∈ b, e.1 ≠ k) :
    tget d k (a ++ b) = tget d k a := by
  induction a with
  | nil => exact tget_of_absent d k b h
  | cons e r ih => rw [List.cons_append, tget_cons, tget_cons, ih]

/-- Entries of other keys may be left out. -/
theorem tget_filter (d : α) (k : Nat) (p : Nat → Bool) (t : Tab α) (h : p k = true) :
    tget d k (t.filter fun e => p e.1) = tget d k t := by
  induction t with
  | nil => rfl
  | cons e r ih =>
    rw [List.filter_cons, tget_cons]
    by_cases he : e.1 = k
    · simp [he, h, tget_cons]
    · rw [if_neg he]
      split
      · rw [tget_cons, if_neg he, ih]
      · exact ih

variable [DecidableEq α]

theorem tcells_keys (d : α) (k : Nat) (l : List α) : ∀ e ∈ tcells d k l, k ≤ e.1 ∧ e.1 < k + l.length := by
  induction l generalizing k with
  | nil => simp [tcells]
  | cons v r ih =>
    intro e he
    simp only [tcells] at he
    split at he
    · have := ih (k + 1) e he
      simp only [List.length_cons]; omega
    · rcases List.mem_cons.1 he with rfl | h
      · simp only [List.length_cons]; omega
      · have := ih (k + 1) e h
        simp only [List.length_cons]; omega

theorem tget_tcells (d : α) (k j : Nat) (l : List α) (h : k ≤ j) : tget d j (tcells d k l) = l.getD (j - k) d := by
  induction l generalizing k with
  | nil => simp [tcells]
  | cons v r ih =>
    simp only [tcells]
    by_cases hj : j = k
    · subst hj
      have ha : tget d j (tcells d (j + 1) r) = d :=
        tget_of_absent _ _ _ fun e he => by have := tcells_keys d (j + 1) r e he; omega
      split
      · rw [ha]; simp [*]
      · simp [tget_cons]
    · have hk : k + 1 ≤ j := by omega
      have e1 : j - k = (j - (k + 1)) + 1 := by omega
      split
      · rw [ih (k + 1) hk, e1]; simp
      · rw [tget_cons, if_neg (by simpa using fun h => hj h.symm), ih (k + 1) hk, e1]; simp

/-- Reading after a run of keys is set: the run's value within it, and what stood there without. -/
theorem tget_tputN (d : α) (k j : Nat) (l : List α) (t : Tab α) :
    tget d j (tputN d k l t) = if k ≤ j ∧ j < k + l.length then l.getD (j - k) d else tget d j t := by
  unfold tputN
  have hc := tcells_keys d k l
  by_cases h1 : j < k
  · rw [if_neg (by omega), tget_append_left, tget_append_left]
    · exact tget_filter d j (fun i => decide (i < k)) t (by simpa using h1)
    · intro e he; have := hc e he; omega
    · intro e he; have := of_decide_eq_true (List.mem_filter.1 he).2; omega
  · have hl : ∀ e ∈ t.filter (fun e => decide (e.1 < k)), e.1 ≠ j := by
      intro e he; have := of_decide_eq_true (List.mem_filter.1 he).2; omega
    by_cases h2 : j < k + l.length
    · rw [if_pos ⟨by omega, h2⟩, tget_append_left, tget_append_right _ _ _ _ hl, tget_tcells d k j l (by omega)]
      intro e he; have := of_decide_eq_true (List.mem_filter.1 he).2; omega
    · rw [if_neg (by omega), tget_append_right]
      · exact tget_filter d j (fun i => decide (k + l.length ≤ i)) t (by simp; omega)
      · intro e he
        rcases List.mem_append.1 he with he | he
        · exact hl e he
        · have := hc e he; omega

/-- Reading after one key is set. -/
theorem tget_tput (d : α) (k j : Nat) (v : α) (t : Tab α) :
    tget d j (tput d k v t) = if j = k then v else tget d j t := by
  unfold tput
  rw [tget_tputN]
  by_cases h : j = k
  · subst h; simp
  · rw [if_neg h, if_neg (by simp; omega)]

@[simp] theorem tget_tput_same (d : α) (k : Nat) (v : α) (t : Tab α) : tget d k (tput d k v t) = v := by
  rw [tget_tput, if_pos rfl]

theorem tget_tput_other (d : α) {k j : Nat} (v : α) (t : Tab α) (h : j ≠ k) : tget d j (tput d k v t) = tget d j t := by
  rw [tget_tput, if_neg h]

theorem tget_tmod (d : α) (k j : Nat) (f : α → α) (t : Tab α) :
    tget d j (tmod d k f t) = if j = k then f (tget d k t) else tget d j t := tget_tput d k j _ t

/-! ## The canonical form -/

/-- The canonical form in words: keys strictly rising, no value the default. -/
def tabOk (d : α) (t : Tab α) : Prop := t.Pairwise (fun a b => a.1 < b.1) ∧ ∀ e ∈ t, e.2 ≠ d

theorem twfFrom_iff (d : α) (lo : Option Nat) (t : Tab α) :
    twfFrom d lo t = true ↔ (∀ j, lo = some j → ∀ e ∈ t, j < e.1) ∧ tabOk d t := by
  induction t generalizing lo with
  | nil => simp [twfFrom, tabOk]
  | cons e r ih =>
    simp only [twfFrom, Bool.and_eq_true, ih, tabOk, List.pairwise_cons, List.mem_cons, forall_eq_or_imp]
    simp only [Bool.not_eq_true', decide_eq_false_iff_not, Option.some.injEq, forall_eq']
    constructor
    · rintro ⟨⟨h1, h2⟩, h3, h4, h5⟩
      refine ⟨fun j hj => ?_, ⟨h3, h4⟩, h2, h5⟩
      subst hj
      have h1 : j < e.1 := by simpa using h1
      exact ⟨h1, fun x hx => Nat.lt_trans h1 (h3 x hx)⟩
    · rintro ⟨h1, ⟨h2, h3⟩, h4, h5⟩
      refine ⟨⟨?_, h4⟩, h2, h3, h5⟩
      cases lo with
      | none => rfl
      | some j => simpa using (h1 j rfl).1

theorem twf_iff (d : α) (t : Tab α) : twf d t = true ↔ tabOk d t := by
  rw [twf, twfFrom_iff]; simp

theorem tcells_ok (d : α) (k : Nat) (l : List α) : tabOk d (tcells d k l) := by
  induction l generalizing k with
  | nil => simp [tcells, tabOk]
  | cons v r ih =>
    simp only [tcells]
    split
    · exact ih (k + 1)
    · next h =>
      refine ⟨List.pairwise_cons.2 ⟨fun e he => ?_, (ih (k + 1)).1⟩, ?_⟩
      · have := tcells_keys d (k + 1) r e he
        simp only; omega
      · intro e he
        rcases List.mem_cons.1 he with rfl | h'
        · exact h
        · exact (ih (k + 1)).2 e h'

omit [DecidableEq α] in
theorem tabOk_filter (d : α) (p : Nat × α → Bool) (t : Tab α) (h : tabOk d t) : tabOk d (t.filter p) :=
  ⟨h.1.filter p, fun e he => h.2 e (List.mem_filter.1 he).1⟩

theorem tabOk_tputN (d : α) (k : Nat) (l : List α) (t : Tab α) (h : tabOk d t) : tabOk d (tputN d k l t) := by
  unfold tputN
  have hc := tcells_keys d k l
  have ho := tcells_ok d k l
  refine ⟨List.pairwise_append.2 ⟨List.pairwise_append.2 ⟨(tabOk_filter d _ t h).1, ho.1, ?_⟩,
    (tabOk_filter d _ t h).1, ?_⟩, ?_⟩
  · intro a ha b hb
    have := of_decide_eq_true (List.mem_filter.1 ha).2
    have := hc b hb
    omega
  · intro a ha b hb
    have hb := of_decide_eq_true (List.mem_filter.1 hb).2
    rcases List.mem_append.1 ha with ha | ha
    · have := of_decide_eq_true (List.mem_filter.1 ha).2
      omega
    · have := hc a ha
      omega
  · intro e he
    rcases List.mem_append.1 he with he | he
    · rcases List.mem_append.1 he with he | he
      · exact h.2 e (List.mem_filter.1 he).1
      · exact ho.2 e he
    · exact h.2 e (List.mem_filter.1 he).1

@[simp] theorem twf_nil (d : α) : twf d ([] : Tab α) = true := rfl

theorem twf_tcells (d : α) (k : Nat) (l : List α) : twf d (tcells d k l) = true := (twf_iff d _).2 (tcells_ok d k l)

/-- Setting a run of keys keeps the canonical form. -/
theorem twf_tputN (d : α) (k : Nat) (l : List α) (t : Tab α) (h : twf d t = true) : twf d (tputN d k l t) = true :=
  (twf_iff d _).2 (tabOk_tputN d k l t ((twf_iff d t).1 h))

/-- Setting a key keeps the canonical form. -/
theorem twf_tput (d : α) (k : Nat) (v : α) (t : Tab α) (h : twf d t = true) : twf d (tput d k v t) = true :=
  twf_tputN d k [v] t h

theorem twf_tmod (d : α) (k : Nat) (f : α → α) (t : Tab α) (h : twf d t = true) : twf d (tmod d k f t) = true :=
  twf_tput d k _ t h

theorem twf_filter (d : α) (p : Nat × α → Bool) (t : Tab α) (h : twf d t = true) : twf d (t.filter p) = true :=
  (twf_iff d _).2 (tabOk_filter d p t ((twf_iff d t).1 h))

theorem twf_tmap (d : α) (f : α → α) (t : Tab α) (h : twf d t = true) : twf d (tmap d f t) = true := by
  rw [twf_iff] at h ⊢
  refine ⟨List.Pairwise.filter _ (List.pairwise_map.2 (h.1.imp fun hab => hab)), fun e he => ?_⟩
  exact of_decide_eq_true (List.mem_filter.1 he).2

/-- Two canonical tables that read alike are equal. -/
theorem tab_ext (d : α) (a b : Tab α) (ha : twf d a = true) (hb : twf d b = true) (h : ∀ k, tget d k a = tget d k b) :
    a = b := by
  rw [twf_iff] at ha hb
  induction a generalizing b with
  | nil =>
    cases b with
    | nil => rfl
    | cons e r =>
      have := h e.1
      rw [tget_nil, tget_cons, if_pos rfl] at this
      exact absurd this.symm (hb.2 e (by simp))
  | cons x xs ih =>
    have low : ∀ (e : Nat × α) (r : Tab α), tabOk d (e :: r) → ∀ j, j < e.1 → tget d j (e :: r) = d := by
      intro e r ho j hj
      refine tget_of_absent d j _ fun y hy => ?_
      rcases List.mem_cons.1 hy with rfl | hy
      · omega
      · have := (List.pairwise_cons.1 ho.1).1 y hy; omega
    cases b with
    | nil =>
      have := h x.1
      rw [tget_nil, tget_cons, if_pos rfl] at this
      exact absurd this (ha.2 x (by simp))
    | cons y ys =>
      have hk : x.1 = y.1 := by
        rcases Nat.lt_trichotomy x.1 y.1 with hlt | heq | hlt
        · have := h x.1
          rw [low y ys hb x.1 hlt, tget_cons, if_pos rfl] at this
          exact absurd this (ha.2 x (by simp))
        · exact heq
        · have := h y.1
          rw [low x xs ha y.1 hlt, tget_cons, if_pos rfl] at this
          exact absurd this.symm (hb.2 y (by simp))
      have hv : x.2 = y.2 := by
        have := h x.1
        rw [tget_cons, if_pos rfl, tget_cons, if_pos hk.symm] at this
        exact this
      have hxy : x = y := Prod.ext hk hv
      subst hxy
      have hax : tabOk d xs := ⟨(List.pairwise_cons.1 ha.1).2, fun e he => ha.2 e (by simp [he])⟩
      have hby : tabOk d ys := ⟨(List.pairwise_cons.1 hb.1).2, fun e he => hb.2 e (by simp [he])⟩
      refine congrArg _ (ih ys hax hby fun k => ?_)
      by_cases hk' : x.1 = k
      · subst hk'
        rw [tget_of_absent d x.1 xs fun e he => by have := (List.pairwise_cons.1 ha.1).1 e he; omega,
          tget_of_absent d x.1 ys fun e he => by have := (List.pairwise_cons.1 hb.1).1 e he; omega]
      · have := h k
        rwa [tget_cons, tget_cons, if_neg hk', if_neg hk'] at this

/-! ## Memories -/

theorem memory_wf_nil : Memory.wf [] = true := rfl

/-- Every write of a memory keeps its canonical form. -/
theorem memory_wf_write (m : Memory) (a n v : Nat) (h : m.wf = true) : (m.write a n v).wf = true :=
  twf_tputN (0 : Byte) a _ m h

@[simp] theorem length_toBytes (n v : Nat) : (toBytes n v).length = n := by
  induction n generalizing v with
  | zero => rfl
  | succ n ih => simp [toBytes, ih]

/-- A byte after a write: the written one within the run, and what stood there without. -/
theorem tget_write (m : Memory) (a n v j : Nat) :
    tget 0 j (m.write a n v) = if a ≤ j ∧ j < a + n then (toBytes n v).getD (j - a) 0 else tget 0 j m := by
  rw [Memory.write, tget_tputN, length_toBytes]

end Sys2Proof.Machine
end

