-- ==== Sys2Proof/Laws/State.lean ====
section
/-! SUPPORT. Laws of State: each field after each update of a context, a core or a die, and what a context, a core or a
die reads as after an update. -/

namespace Sys2Proof.Machine


/-! ## setCtx -/

@[simp] theorem State.setCtx_clk (s : State) (k : CtxKey) (c : Ctx) : (s.setCtx k c).clk = s.clk := rfl
@[simp] theorem State.setCtx_agenda (s : State) (k : CtxKey) (c : Ctx) : (s.setCtx k c).agenda = s.agenda := rfl
@[simp] theorem State.setCtx_fresh (s : State) (k : CtxKey) (c : Ctx) : (s.setCtx k c).fresh = s.fresh := rfl
@[simp] theorem State.setCtx_iss (s : State) (k : CtxKey) (c : Ctx) : (s.setCtx k c).iss = s.iss := rfl
@[simp] theorem State.setCtx_powered (s : State) (k : CtxKey) (c : Ctx) : (s.setCtx k c).powered = s.powered := rfl
@[simp] theorem State.setCtx_dram (s : State) (k : CtxKey) (c : Ctx) : (s.setCtx k c).dram = s.dram := rfl
@[simp] theorem State.setCtx_spad (s : State) (k : CtxKey) (c : Ctx) : (s.setCtx k c).spad = s.spad := rfl
@[simp] theorem State.setCtx_cores (s : State) (k : CtxKey) (c : Ctx) : (s.setCtx k c).cores = s.cores := rfl
@[simp] theorem State.setCtx_dies (s : State) (k : CtxKey) (c : Ctx) : (s.setCtx k c).dies = s.dies := rfl
@[simp] theorem State.setCtx_tlb (s : State) (k : CtxKey) (c : Ctx) : (s.setCtx k c).tlb = s.tlb := rfl
@[simp] theorem State.setCtx_migHeld (s : State) (k : CtxKey) (c : Ctx) : (s.setCtx k c).migHeld = s.migHeld := rfl
@[simp] theorem State.setCtx_migOpen (s : State) (k : CtxKey) (c : Ctx) : (s.setCtx k c).migOpen = s.migOpen := rfl
@[simp] theorem State.setCtx_recs (s : State) (k : CtxKey) (c : Ctx) : (s.setCtx k c).recs = s.recs := rfl
@[simp] theorem State.setCtx_queues (s : State) (k : CtxKey) (c : Ctx) : (s.setCtx k c).queues = s.queues := rfl
@[simp] theorem State.setCtx_acl (s : State) (k : CtxKey) (c : Ctx) : (s.setCtx k c).acl = s.acl := rfl
@[simp] theorem State.setCtx_peers (s : State) (k : CtxKey) (c : Ctx) : (s.setCtx k c).peers = s.peers := rfl
@[simp] theorem State.setCtx_ends (s : State) (k : CtxKey) (c : Ctx) : (s.setCtx k c).ends = s.ends := rfl
@[simp] theorem State.setCtx_endErr (s : State) (k : CtxKey) (c : Ctx) : (s.setCtx k c).endErr = s.endErr := rfl
@[simp] theorem State.setCtx_sends (s : State) (k : CtxKey) (c : Ctx) : (s.setCtx k c).sends = s.sends := rfl
@[simp] theorem State.setCtx_inbox (s : State) (k : CtxKey) (c : Ctx) : (s.setCtx k c).inbox = s.inbox := rfl
@[simp] theorem State.setCtx_out (s : State) (k : CtxKey) (c : Ctx) : (s.setCtx k c).out = s.out := rfl
@[simp] theorem State.setCtx_rings (s : State) (k : CtxKey) (c : Ctx) : (s.setCtx k c).rings = s.rings := rfl
@[simp] theorem State.setCtx_experts (s : State) (k : CtxKey) (c : Ctx) : (s.setCtx k c).experts = s.experts := rfl
@[simp] theorem State.setCtx_graphs (s : State) (k : CtxKey) (c : Ctx) : (s.setCtx k c).graphs = s.graphs := rfl
@[simp] theorem State.setCtx_installs (s : State) (k : CtxKey) (c : Ctx) : (s.setCtx k c).installs = s.installs := rfl
@[simp] theorem State.setCtx_removals (s : State) (k : CtxKey) (c : Ctx) : (s.setCtx k c).removals = s.removals := rfl
@[simp] theorem State.setCtx_searches (s : State) (k : CtxKey) (c : Ctx) : (s.setCtx k c).searches = s.searches := rfl
@[simp] theorem State.setCtx_groupMap (s : State) (k : CtxKey) (c : Ctx) : (s.setCtx k c).groupMap = s.groupMap := rfl
@[simp] theorem State.setCtx_groupMask (s : State) (k : CtxKey) (c : Ctx) : (s.setCtx k c).groupMask = s.groupMask := rfl
@[simp] theorem State.setCtx_episodes (s : State) (k : CtxKey) (c : Ctx) : (s.setCtx k c).episodes = s.episodes := rfl
@[simp] theorem State.setCtx_clasp (s : State) (k : CtxKey) (c : Ctx) : (s.setCtx k c).clasp = s.clasp := rfl
@[simp] theorem State.setCtx_claspReqs (s : State) (k : CtxKey) (c : Ctx) : (s.setCtx k c).claspReqs = s.claspReqs := rfl
@[simp] theorem State.setCtx_locket (s : State) (k : CtxKey) (c : Ctx) : (s.setCtx k c).locket = s.locket := rfl
@[simp] theorem State.setCtx_stash (s : State) (k : CtxKey) (c : Ctx) : (s.setCtx k c).stash = s.stash := rfl
@[simp] theorem State.setCtx_stashRx (s : State) (k : CtxKey) (c : Ctx) : (s.setCtx k c).stashRx = s.stashRx := rfl
@[simp] theorem State.setCtx_starts (s : State) (k : CtxKey) (c : Ctx) : (s.setCtx k c).starts = s.starts := rfl
@[simp] theorem State.setCtx_ctl (s : State) (k : CtxKey) (c : Ctx) : (s.setCtx k c).ctl = s.ctl := rfl
@[simp] theorem State.setCtx_torus (s : State) (k : CtxKey) (c : Ctx) : (s.setCtx k c).torus = s.torus := rfl
@[simp] theorem State.setCtx_events (s : State) (k : CtxKey) (c : Ctx) : (s.setCtx k c).events = s.events := rfl
@[simp] theorem State.setCtx_funcready (s : State) (k : CtxKey) (c : Ctx) : (s.setCtx k c).funcready = s.funcready := rfl
@[simp] theorem State.setCtx_clReady (s : State) (k : CtxKey) (c : Ctx) : (s.setCtx k c).clReady = s.clReady := rfl
@[simp] theorem State.setCtx_stops (s : State) (k : CtxKey) (c : Ctx) : (s.setCtx k c).stops = s.stops := rfl
@[simp] theorem State.setCtx_rates (s : State) (k : CtxKey) (c : Ctx) : (s.setCtx k c).rates = s.rates := rfl
@[simp] theorem State.setCtx_bar2 (s : State) (k : CtxKey) (c : Ctx) : (s.setCtx k c).bar2 = s.bar2 := rfl
@[simp] theorem State.setCtx_bar2Done (s : State) (k : CtxKey) (c : Ctx) : (s.setCtx k c).bar2Done = s.bar2Done := rfl
@[simp] theorem State.setCtx_bar0Done (s : State) (k : CtxKey) (c : Ctx) : (s.setCtx k c).bar0Done = s.bar0Done := rfl
@[simp] theorem State.setCtx_duty (s : State) (k : CtxKey) (c : Ctx) : (s.setCtx k c).duty = s.duty := rfl
@[simp] theorem State.setCtx_governed (s : State) (k : CtxKey) (c : Ctx) : (s.setCtx k c).governed = s.governed := rfl
@[simp] theorem State.setCtx_measures (s : State) (k : CtxKey) (c : Ctx) : (s.setCtx k c).measures = s.measures := rfl
@[simp] theorem State.setCtx_measured (s : State) (k : CtxKey) (c : Ctx) : (s.setCtx k c).measured = s.measured := rfl
@[simp] theorem State.setCtx_spdm (s : State) (k : CtxKey) (c : Ctx) : (s.setCtx k c).spdm = s.spdm := rfl
@[simp] theorem State.setCtx_norlys (s : State) (k : CtxKey) (c : Ctx) : (s.setCtx k c).norlys = s.norlys := rfl
@[simp] theorem State.setCtx_norlysDone (s : State) (k : CtxKey) (c : Ctx) : (s.setCtx k c).norlysDone = s.norlysDone := rfl

/-! ## setCore -/

@[simp] theorem State.setCore_clk (s : State) (n : CoreNo) (c : Core) : (s.setCore n c).clk = s.clk := rfl
@[simp] theorem State.setCore_agenda (s : State) (n : CoreNo) (c : Core) : (s.setCore n c).agenda = s.agenda := rfl
@[simp] theorem State.setCore_fresh (s : State) (n : CoreNo) (c : Core) : (s.setCore n c).fresh = s.fresh := rfl
@[simp] theorem State.setCore_iss (s : State) (n : CoreNo) (c : Core) : (s.setCore n c).iss = s.iss := rfl
@[simp] theorem State.setCore_powered (s : State) (n : CoreNo) (c : Core) : (s.setCore n c).powered = s.powered := rfl
@[simp] theorem State.setCore_dram (s : State) (n : CoreNo) (c : Core) : (s.setCore n c).dram = s.dram := rfl
@[simp] theorem State.setCore_spad (s : State) (n : CoreNo) (c : Core) : (s.setCore n c).spad = s.spad := rfl
@[simp] theorem State.setCore_ctxs (s : State) (n : CoreNo) (c : Core) : (s.setCore n c).ctxs = s.ctxs := rfl
@[simp] theorem State.setCore_dies (s : State) (n : CoreNo) (c : Core) : (s.setCore n c).dies = s.dies := rfl
@[simp] theorem State.setCore_tlb (s : State) (n : CoreNo) (c : Core) : (s.setCore n c).tlb = s.tlb := rfl
@[simp] theorem State.setCore_migHeld (s : State) (n : CoreNo) (c : Core) : (s.setCore n c).migHeld = s.migHeld := rfl
@[simp] theorem State.setCore_migOpen (s : State) (n : CoreNo) (c : Core) : (s.setCore n c).migOpen = s.migOpen := rfl
@[simp] theorem State.setCore_recs (s : State) (n : CoreNo) (c : Core) : (s.setCore n c).recs = s.recs := rfl
@[simp] theorem State.setCore_queues (s : State) (n : CoreNo) (c : Core) : (s.setCore n c).queues = s.queues := rfl
@[simp] theorem State.setCore_acl (s : State) (n : CoreNo) (c : Core) : (s.setCore n c).acl = s.acl := rfl
@[simp] theorem State.setCore_peers (s : State) (n : CoreNo) (c : Core) : (s.setCore n c).peers = s.peers := rfl
@[simp] theorem State.setCore_ends (s : State) (n : CoreNo) (c : Core) : (s.setCore n c).ends = s.ends := rfl
@[simp] theorem State.setCore_endErr (s : State) (n : CoreNo) (c : Core) : (s.setCore n c).endErr = s.endErr := rfl
@[simp] theorem State.setCore_sends (s : State) (n : CoreNo) (c : Core) : (s.setCore n c).sends = s.sends := rfl
@[simp] theorem State.setCore_inbox (s : State) (n : CoreNo) (c : Core) : (s.setCore n c).inbox = s.inbox := rfl
@[simp] theorem State.setCore_out (s : State) (n : CoreNo) (c : Core) : (s.setCore n c).out = s.out := rfl
@[simp] theorem State.setCore_rings (s : State) (n : CoreNo) (c : Core) : (s.setCore n c).rings = s.rings := rfl
@[simp] theorem State.setCore_experts (s : State) (n : CoreNo) (c : Core) : (s.setCore n c).experts = s.experts := rfl
@[simp] theorem State.setCore_graphs (s : State) (n : CoreNo) (c : Core) : (s.setCore n c).graphs = s.graphs := rfl
@[simp] theorem State.setCore_installs (s : State) (n : CoreNo) (c : Core) : (s.setCore n c).installs = s.installs := rfl
@[simp] theorem State.setCore_removals (s : State) (n : CoreNo) (c : Core) : (s.setCore n c).removals = s.removals := rfl
@[simp] theorem State.setCore_searches (s : State) (n : CoreNo) (c : Core) : (s.setCore n c).searches = s.searches := rfl
@[simp] theorem State.setCore_groupMap (s : State) (n : CoreNo) (c : Core) : (s.setCore n c).groupMap = s.groupMap := rfl
@[simp] theorem State.setCore_groupMask (s : State) (n : CoreNo) (c : Core) : (s.setCore n c).groupMask = s.groupMask := rfl
@[simp] theorem State.setCore_episodes (s : State) (n : CoreNo) (c : Core) : (s.setCore n c).episodes = s.episodes := rfl
@[simp] theorem State.setCore_clasp (s : State) (n : CoreNo) (c : Core) : (s.setCore n c).clasp = s.clasp := rfl
@[simp] theorem State.setCore_claspReqs (s : State) (n : CoreNo) (c : Core) : (s.setCore n c).claspReqs = s.claspReqs := rfl
@[simp] theorem State.setCore_locket (s : State) (n : CoreNo) (c : Core) : (s.setCore n c).locket = s.locket := rfl
@[simp] theorem State.setCore_stash (s : State) (n : CoreNo) (c : Core) : (s.setCore n c).stash = s.stash := rfl
@[simp] theorem State.setCore_stashRx (s : State) (n : CoreNo) (c : Core) : (s.setCore n c).stashRx = s.stashRx := rfl
@[simp] theorem State.setCore_starts (s : State) (n : CoreNo) (c : Core) : (s.setCore n c).starts = s.starts := rfl
@[simp] theorem State.setCore_ctl (s : State) (n : CoreNo) (c : Core) : (s.setCore n c).ctl = s.ctl := rfl
@[simp] theorem State.setCore_torus (s : State) (n : CoreNo) (c : Core) : (s.setCore n c).torus = s.torus := rfl
@[simp] theorem State.setCore_events (s : State) (n : CoreNo) (c : Core) : (s.setCore n c).events = s.events := rfl
@[simp] theorem State.setCore_funcready (s : State) (n : CoreNo) (c : Core) : (s.setCore n c).funcready = s.funcready := rfl
@[simp] theorem State.setCore_clReady (s : State) (n : CoreNo) (c : Core) : (s.setCore n c).clReady = s.clReady := rfl
@[simp] theorem State.setCore_stops (s : State) (n : CoreNo) (c : Core) : (s.setCore n c).stops = s.stops := rfl
@[simp] theorem State.setCore_rates (s : State) (n : CoreNo) (c : Core) : (s.setCore n c).rates = s.rates := rfl
@[simp] theorem State.setCore_bar2 (s : State) (n : CoreNo) (c : Core) : (s.setCore n c).bar2 = s.bar2 := rfl
@[simp] theorem State.setCore_bar2Done (s : State) (n : CoreNo) (c : Core) : (s.setCore n c).bar2Done = s.bar2Done := rfl
@[simp] theorem State.setCore_bar0Done (s : State) (n : CoreNo) (c : Core) : (s.setCore n c).bar0Done = s.bar0Done := rfl
@[simp] theorem State.setCore_duty (s : State) (n : CoreNo) (c : Core) : (s.setCore n c).duty = s.duty := rfl
@[simp] theorem State.setCore_governed (s : State) (n : CoreNo) (c : Core) : (s.setCore n c).governed = s.governed := rfl
@[simp] theorem State.setCore_measures (s : State) (n : CoreNo) (c : Core) : (s.setCore n c).measures = s.measures := rfl
@[simp] theorem State.setCore_measured (s : State) (n : CoreNo) (c : Core) : (s.setCore n c).measured = s.measured := rfl
@[simp] theorem State.setCore_spdm (s : State) (n : CoreNo) (c : Core) : (s.setCore n c).spdm = s.spdm := rfl
@[simp] theorem State.setCore_norlys (s : State) (n : CoreNo) (c : Core) : (s.setCore n c).norlys = s.norlys := rfl
@[simp] theorem State.setCore_norlysDone (s : State) (n : CoreNo) (c : Core) : (s.setCore n c).norlysDone = s.norlysDone := rfl

/-! ## setDie -/

@[simp] theorem State.setDie_clk (s : State) (d : Nat) (x : Die) : (s.setDie d x).clk = s.clk := rfl
@[simp] theorem State.setDie_agenda (s : State) (d : Nat) (x : Die) : (s.setDie d x).agenda = s.agenda := rfl
@[simp] theorem State.setDie_fresh (s : State) (d : Nat) (x : Die) : (s.setDie d x).fresh = s.fresh := rfl
@[simp] theorem State.setDie_iss (s : State) (d : Nat) (x : Die) : (s.setDie d x).iss = s.iss := rfl
@[simp] theorem State.setDie_powered (s : State) (d : Nat) (x : Die) : (s.setDie d x).powered = s.powered := rfl
@[simp] theorem State.setDie_dram (s : State) (d : Nat) (x : Die) : (s.setDie d x).dram = s.dram := rfl
@[simp] theorem State.setDie_spad (s : State) (d : Nat) (x : Die) : (s.setDie d x).spad = s.spad := rfl
@[simp] theorem State.setDie_ctxs (s : State) (d : Nat) (x : Die) : (s.setDie d x).ctxs = s.ctxs := rfl
@[simp] theorem State.setDie_cores (s : State) (d : Nat) (x : Die) : (s.setDie d x).cores = s.cores := rfl
@[simp] theorem State.setDie_tlb (s : State) (d : Nat) (x : Die) : (s.setDie d x).tlb = s.tlb := rfl
@[simp] theorem State.setDie_migHeld (s : State) (d : Nat) (x : Die) : (s.setDie d x).migHeld = s.migHeld := rfl
@[simp] theorem State.setDie_migOpen (s : State) (d : Nat) (x : Die) : (s.setDie d x).migOpen = s.migOpen := rfl
@[simp] theorem State.setDie_recs (s : State) (d : Nat) (x : Die) : (s.setDie d x).recs = s.recs := rfl
@[simp] theorem State.setDie_queues (s : State) (d : Nat) (x : Die) : (s.setDie d x).queues = s.queues := rfl
@[simp] theorem State.setDie_acl (s : State) (d : Nat) (x : Die) : (s.setDie d x).acl = s.acl := rfl
@[simp] theorem State.setDie_peers (s : State) (d : Nat) (x : Die) : (s.setDie d x).peers = s.peers := rfl
@[simp] theorem State.setDie_ends (s : State) (d : Nat) (x : Die) : (s.setDie d x).ends = s.ends := rfl
@[simp] theorem State.setDie_endErr (s : State) (d : Nat) (x : Die) : (s.setDie d x).endErr = s.endErr := rfl
@[simp] theorem State.setDie_sends (s : State) (d : Nat) (x : Die) : (s.setDie d x).sends = s.sends := rfl
@[simp] theorem State.setDie_inbox (s : State) (d : Nat) (x : Die) : (s.setDie d x).inbox = s.inbox := rfl
@[simp] theorem State.setDie_out (s : State) (d : Nat) (x : Die) : (s.setDie d x).out = s.out := rfl
@[simp] theorem State.setDie_rings (s : State) (d : Nat) (x : Die) : (s.setDie d x).rings = s.rings := rfl
@[simp] theorem State.setDie_experts (s : State) (d : Nat) (x : Die) : (s.setDie d x).experts = s.experts := rfl
@[simp] theorem State.setDie_graphs (s : State) (d : Nat) (x : Die) : (s.setDie d x).graphs = s.graphs := rfl
@[simp] theorem State.setDie_installs (s : State) (d : Nat) (x : Die) : (s.setDie d x).installs = s.installs := rfl
@[simp] theorem State.setDie_removals (s : State) (d : Nat) (x : Die) : (s.setDie d x).removals = s.removals := rfl
@[simp] theorem State.setDie_searches (s : State) (d : Nat) (x : Die) : (s.setDie d x).searches = s.searches := rfl
@[simp] theorem State.setDie_groupMap (s : State) (d : Nat) (x : Die) : (s.setDie d x).groupMap = s.groupMap := rfl
@[simp] theorem State.setDie_groupMask (s : State) (d : Nat) (x : Die) : (s.setDie d x).groupMask = s.groupMask := rfl
@[simp] theorem State.setDie_episodes (s : State) (d : Nat) (x : Die) : (s.setDie d x).episodes = s.episodes := rfl
@[simp] theorem State.setDie_clasp (s : State) (d : Nat) (x : Die) : (s.setDie d x).clasp = s.clasp := rfl
@[simp] theorem State.setDie_claspReqs (s : State) (d : Nat) (x : Die) : (s.setDie d x).claspReqs = s.claspReqs := rfl
@[simp] theorem State.setDie_locket (s : State) (d : Nat) (x : Die) : (s.setDie d x).locket = s.locket := rfl
@[simp] theorem State.setDie_stash (s : State) (d : Nat) (x : Die) : (s.setDie d x).stash = s.stash := rfl
@[simp] theorem State.setDie_stashRx (s : State) (d : Nat) (x : Die) : (s.setDie d x).stashRx = s.stashRx := rfl
@[simp] theorem State.setDie_starts (s : State) (d : Nat) (x : Die) : (s.setDie d x).starts = s.starts := rfl
@[simp] theorem State.setDie_ctl (s : State) (d : Nat) (x : Die) : (s.setDie d x).ctl = s.ctl := rfl
@[simp] theorem State.setDie_torus (s : State) (d : Nat) (x : Die) : (s.setDie d x).torus = s.torus := rfl
@[simp] theorem State.setDie_events (s : State) (d : Nat) (x : Die) : (s.setDie d x).events = s.events := rfl
@[simp] theorem State.setDie_funcready (s : State) (d : Nat) (x : Die) : (s.setDie d x).funcready = s.funcready := rfl
@[simp] theorem State.setDie_clReady (s : State) (d : Nat) (x : Die) : (s.setDie d x).clReady = s.clReady := rfl
@[simp] theorem State.setDie_stops (s : State) (d : Nat) (x : Die) : (s.setDie d x).stops = s.stops := rfl
@[simp] theorem State.setDie_rates (s : State) (d : Nat) (x : Die) : (s.setDie d x).rates = s.rates := rfl
@[simp] theorem State.setDie_bar2 (s : State) (d : Nat) (x : Die) : (s.setDie d x).bar2 = s.bar2 := rfl
@[simp] theorem State.setDie_bar2Done (s : State) (d : Nat) (x : Die) : (s.setDie d x).bar2Done = s.bar2Done := rfl
@[simp] theorem State.setDie_bar0Done (s : State) (d : Nat) (x : Die) : (s.setDie d x).bar0Done = s.bar0Done := rfl
@[simp] theorem State.setDie_duty (s : State) (d : Nat) (x : Die) : (s.setDie d x).duty = s.duty := rfl
@[simp] theorem State.setDie_governed (s : State) (d : Nat) (x : Die) : (s.setDie d x).governed = s.governed := rfl
@[simp] theorem State.setDie_measures (s : State) (d : Nat) (x : Die) : (s.setDie d x).measures = s.measures := rfl
@[simp] theorem State.setDie_measured (s : State) (d : Nat) (x : Die) : (s.setDie d x).measured = s.measured := rfl
@[simp] theorem State.setDie_spdm (s : State) (d : Nat) (x : Die) : (s.setDie d x).spdm = s.spdm := rfl
@[simp] theorem State.setDie_norlys (s : State) (d : Nat) (x : Die) : (s.setDie d x).norlys = s.norlys := rfl
@[simp] theorem State.setDie_norlysDone (s : State) (d : Nat) (x : Die) : (s.setDie d x).norlysDone = s.norlysDone := rfl

/-! ## mapCtx -/

@[simp] theorem State.mapCtx_clk (s : State) (k : CtxKey) (f : Ctx → Ctx) : (s.mapCtx k f).clk = s.clk := rfl
@[simp] theorem State.mapCtx_agenda (s : State) (k : CtxKey) (f : Ctx → Ctx) : (s.mapCtx k f).agenda = s.agenda := rfl
@[simp] theorem State.mapCtx_fresh (s : State) (k : CtxKey) (f : Ctx → Ctx) : (s.mapCtx k f).fresh = s.fresh := rfl
@[simp] theorem State.mapCtx_iss (s : State) (k : CtxKey) (f : Ctx → Ctx) : (s.mapCtx k f).iss = s.iss := rfl
@[simp] theorem State.mapCtx_powered (s : State) (k : CtxKey) (f : Ctx → Ctx) : (s.mapCtx k f).powered = s.powered := rfl
@[simp] theorem State.mapCtx_dram (s : State) (k : CtxKey) (f : Ctx → Ctx) : (s.mapCtx k f).dram = s.dram := rfl
@[simp] theorem State.mapCtx_spad (s : State) (k : CtxKey) (f : Ctx → Ctx) : (s.mapCtx k f).spad = s.spad := rfl
@[simp] theorem State.mapCtx_cores (s : State) (k : CtxKey) (f : Ctx → Ctx) : (s.mapCtx k f).cores = s.cores := rfl
@[simp] theorem State.mapCtx_dies (s : State) (k : CtxKey) (f : Ctx → Ctx) : (s.mapCtx k f).dies = s.dies := rfl
@[simp] theorem State.mapCtx_tlb (s : State) (k : CtxKey) (f : Ctx → Ctx) : (s.mapCtx k f).tlb = s.tlb := rfl
@[simp] theorem State.mapCtx_migHeld (s : State) (k : CtxKey) (f : Ctx → Ctx) : (s.mapCtx k f).migHeld = s.migHeld := rfl
@[simp] theorem State.mapCtx_migOpen (s : State) (k : CtxKey) (f : Ctx → Ctx) : (s.mapCtx k f).migOpen = s.migOpen := rfl
@[simp] theorem State.mapCtx_recs (s : State) (k : CtxKey) (f : Ctx → Ctx) : (s.mapCtx k f).recs = s.recs := rfl
@[simp] theorem State.mapCtx_queues (s : State) (k : CtxKey) (f : Ctx → Ctx) : (s.mapCtx k f).queues = s.queues := rfl
@[simp] theorem State.mapCtx_acl (s : State) (k : CtxKey) (f : Ctx → Ctx) : (s.mapCtx k f).acl = s.acl := rfl
@[simp] theorem State.mapCtx_peers (s : State) (k : CtxKey) (f : Ctx → Ctx) : (s.mapCtx k f).peers = s.peers := rfl
@[simp] theorem State.mapCtx_ends (s : State) (k : CtxKey) (f : Ctx → Ctx) : (s.mapCtx k f).ends = s.ends := rfl
@[simp] theorem State.mapCtx_endErr (s : State) (k : CtxKey) (f : Ctx → Ctx) : (s.mapCtx k f).endErr = s.endErr := rfl
@[simp] theorem State.mapCtx_sends (s : State) (k : CtxKey) (f : Ctx → Ctx) : (s.mapCtx k f).sends = s.sends := rfl
@[simp] theorem State.mapCtx_inbox (s : State) (k : CtxKey) (f : Ctx → Ctx) : (s.mapCtx k f).inbox = s.inbox := rfl
@[simp] theorem State.mapCtx_out (s : State) (k : CtxKey) (f : Ctx → Ctx) : (s.mapCtx k f).out = s.out := rfl
@[simp] theorem State.mapCtx_rings (s : State) (k : CtxKey) (f : Ctx → Ctx) : (s.mapCtx k f).rings = s.rings := rfl
@[simp] theorem State.mapCtx_experts (s : State) (k : CtxKey) (f : Ctx → Ctx) : (s.mapCtx k f).experts = s.experts := rfl
@[simp] theorem State.mapCtx_graphs (s : State) (k : CtxKey) (f : Ctx → Ctx) : (s.mapCtx k f).graphs = s.graphs := rfl
@[simp] theorem State.mapCtx_installs (s : State) (k : CtxKey) (f : Ctx → Ctx) : (s.mapCtx k f).installs = s.installs := rfl
@[simp] theorem State.mapCtx_removals (s : State) (k : CtxKey) (f : Ctx → Ctx) : (s.mapCtx k f).removals = s.removals := rfl
@[simp] theorem State.mapCtx_searches (s : State) (k : CtxKey) (f : Ctx → Ctx) : (s.mapCtx k f).searches = s.searches := rfl
@[simp] theorem State.mapCtx_groupMap (s : State) (k : CtxKey) (f : Ctx → Ctx) : (s.mapCtx k f).groupMap = s.groupMap := rfl
@[simp] theorem State.mapCtx_groupMask (s : State) (k : CtxKey) (f : Ctx → Ctx) : (s.mapCtx k f).groupMask = s.groupMask := rfl
@[simp] theorem State.mapCtx_episodes (s : State) (k : CtxKey) (f : Ctx → Ctx) : (s.mapCtx k f).episodes = s.episodes := rfl
@[simp] theorem State.mapCtx_clasp (s : State) (k : CtxKey) (f : Ctx → Ctx) : (s.mapCtx k f).clasp = s.clasp := rfl
@[simp] theorem State.mapCtx_claspReqs (s : State) (k : CtxKey) (f : Ctx → Ctx) : (s.mapCtx k f).claspReqs = s.claspReqs := rfl
@[simp] theorem State.mapCtx_locket (s : State) (k : CtxKey) (f : Ctx → Ctx) : (s.mapCtx k f).locket = s.locket := rfl
@[simp] theorem State.mapCtx_stash (s : State) (k : CtxKey) (f : Ctx → Ctx) : (s.mapCtx k f).stash = s.stash := rfl
@[simp] theorem State.mapCtx_stashRx (s : State) (k : CtxKey) (f : Ctx → Ctx) : (s.mapCtx k f).stashRx = s.stashRx := rfl
@[simp] theorem State.mapCtx_starts (s : State) (k : CtxKey) (f : Ctx → Ctx) : (s.mapCtx k f).starts = s.starts := rfl
@[simp] theorem State.mapCtx_ctl (s : State) (k : CtxKey) (f : Ctx → Ctx) : (s.mapCtx k f).ctl = s.ctl := rfl
@[simp] theorem State.mapCtx_torus (s : State) (k : CtxKey) (f : Ctx → Ctx) : (s.mapCtx k f).torus = s.torus := rfl
@[simp] theorem State.mapCtx_events (s : State) (k : CtxKey) (f : Ctx → Ctx) : (s.mapCtx k f).events = s.events := rfl
@[simp] theorem State.mapCtx_funcready (s : State) (k : CtxKey) (f : Ctx → Ctx) : (s.mapCtx k f).funcready = s.funcready := rfl
@[simp] theorem State.mapCtx_clReady (s : State) (k : CtxKey) (f : Ctx → Ctx) : (s.mapCtx k f).clReady = s.clReady := rfl
@[simp] theorem State.mapCtx_stops (s : State) (k : CtxKey) (f : Ctx → Ctx) : (s.mapCtx k f).stops = s.stops := rfl
@[simp] theorem State.mapCtx_rates (s : State) (k : CtxKey) (f : Ctx → Ctx) : (s.mapCtx k f).rates = s.rates := rfl
@[simp] theorem State.mapCtx_bar2 (s : State) (k : CtxKey) (f : Ctx → Ctx) : (s.mapCtx k f).bar2 = s.bar2 := rfl
@[simp] theorem State.mapCtx_bar2Done (s : State) (k : CtxKey) (f : Ctx → Ctx) : (s.mapCtx k f).bar2Done = s.bar2Done := rfl
@[simp] theorem State.mapCtx_bar0Done (s : State) (k : CtxKey) (f : Ctx → Ctx) : (s.mapCtx k f).bar0Done = s.bar0Done := rfl
@[simp] theorem State.mapCtx_duty (s : State) (k : CtxKey) (f : Ctx → Ctx) : (s.mapCtx k f).duty = s.duty := rfl
@[simp] theorem State.mapCtx_governed (s : State) (k : CtxKey) (f : Ctx → Ctx) : (s.mapCtx k f).governed = s.governed := rfl
@[simp] theorem State.mapCtx_measures (s : State) (k : CtxKey) (f : Ctx → Ctx) : (s.mapCtx k f).measures = s.measures := rfl
@[simp] theorem State.mapCtx_measured (s : State) (k : CtxKey) (f : Ctx → Ctx) : (s.mapCtx k f).measured = s.measured := rfl
@[simp] theorem State.mapCtx_spdm (s : State) (k : CtxKey) (f : Ctx → Ctx) : (s.mapCtx k f).spdm = s.spdm := rfl
@[simp] theorem State.mapCtx_norlys (s : State) (k : CtxKey) (f : Ctx → Ctx) : (s.mapCtx k f).norlys = s.norlys := rfl
@[simp] theorem State.mapCtx_norlysDone (s : State) (k : CtxKey) (f : Ctx → Ctx) : (s.mapCtx k f).norlysDone = s.norlysDone := rfl

/-! ## mapCore -/

@[simp] theorem State.mapCore_clk (s : State) (n : CoreNo) (f : Core → Core) : (s.mapCore n f).clk = s.clk := rfl
@[simp] theorem State.mapCore_agenda (s : State) (n : CoreNo) (f : Core → Core) : (s.mapCore n f).agenda = s.agenda := rfl
@[simp] theorem State.mapCore_fresh (s : State) (n : CoreNo) (f : Core → Core) : (s.mapCore n f).fresh = s.fresh := rfl
@[simp] theorem State.mapCore_iss (s : State) (n : CoreNo) (f : Core → Core) : (s.mapCore n f).iss = s.iss := rfl
@[simp] theorem State.mapCore_powered (s : State) (n : CoreNo) (f : Core → Core) : (s.mapCore n f).powered = s.powered := rfl
@[simp] theorem State.mapCore_dram (s : State) (n : CoreNo) (f : Core → Core) : (s.mapCore n f).dram = s.dram := rfl
@[simp] theorem State.mapCore_spad (s : State) (n : CoreNo) (f : Core → Core) : (s.mapCore n f).spad = s.spad := rfl
@[simp] theorem State.mapCore_ctxs (s : State) (n : CoreNo) (f : Core → Core) : (s.mapCore n f).ctxs = s.ctxs := rfl
@[simp] theorem State.mapCore_dies (s : State) (n : CoreNo) (f : Core → Core) : (s.mapCore n f).dies = s.dies := rfl
@[simp] theorem State.mapCore_tlb (s : State) (n : CoreNo) (f : Core → Core) : (s.mapCore n f).tlb = s.tlb := rfl
@[simp] theorem State.mapCore_migHeld (s : State) (n : CoreNo) (f : Core → Core) : (s.mapCore n f).migHeld = s.migHeld := rfl
@[simp] theorem State.mapCore_migOpen (s : State) (n : CoreNo) (f : Core → Core) : (s.mapCore n f).migOpen = s.migOpen := rfl
@[simp] theorem State.mapCore_recs (s : State) (n : CoreNo) (f : Core → Core) : (s.mapCore n f).recs = s.recs := rfl
@[simp] theorem State.mapCore_queues (s : State) (n : CoreNo) (f : Core → Core) : (s.mapCore n f).queues = s.queues := rfl
@[simp] theorem State.mapCore_acl (s : State) (n : CoreNo) (f : Core → Core) : (s.mapCore n f).acl = s.acl := rfl
@[simp] theorem State.mapCore_peers (s : State) (n : CoreNo) (f : Core → Core) : (s.mapCore n f).peers = s.peers := rfl
@[simp] theorem State.mapCore_ends (s : State) (n : CoreNo) (f : Core → Core) : (s.mapCore n f).ends = s.ends := rfl
@[simp] theorem State.mapCore_endErr (s : State) (n : CoreNo) (f : Core → Core) : (s.mapCore n f).endErr = s.endErr := rfl
@[simp] theorem State.mapCore_sends (s : State) (n : CoreNo) (f : Core → Core) : (s.mapCore n f).sends = s.sends := rfl
@[simp] theorem State.mapCore_inbox (s : State) (n : CoreNo) (f : Core → Core) : (s.mapCore n f).inbox = s.inbox := rfl
@[simp] theorem State.mapCore_out (s : State) (n : CoreNo) (f : Core → Core) : (s.mapCore n f).out = s.out := rfl
@[simp] theorem State.mapCore_rings (s : State) (n : CoreNo) (f : Core → Core) : (s.mapCore n f).rings = s.rings := rfl
@[simp] theorem State.mapCore_experts (s : State) (n : CoreNo) (f : Core → Core) : (s.mapCore n f).experts = s.experts := rfl
@[simp] theorem State.mapCore_graphs (s : State) (n : CoreNo) (f : Core → Core) : (s.mapCore n f).graphs = s.graphs := rfl
@[simp] theorem State.mapCore_installs (s : State) (n : CoreNo) (f : Core → Core) : (s.mapCore n f).installs = s.installs := rfl
@[simp] theorem State.mapCore_removals (s : State) (n : CoreNo) (f : Core → Core) : (s.mapCore n f).removals = s.removals := rfl
@[simp] theorem State.mapCore_searches (s : State) (n : CoreNo) (f : Core → Core) : (s.mapCore n f).searches = s.searches := rfl
@[simp] theorem State.mapCore_groupMap (s : State) (n : CoreNo) (f : Core → Core) : (s.mapCore n f).groupMap = s.groupMap := rfl
@[simp] theorem State.mapCore_groupMask (s : State) (n : CoreNo) (f : Core → Core) : (s.mapCore n f).groupMask = s.groupMask := rfl
@[simp] theorem State.mapCore_episodes (s : State) (n : CoreNo) (f : Core → Core) : (s.mapCore n f).episodes = s.episodes := rfl
@[simp] theorem State.mapCore_clasp (s : State) (n : CoreNo) (f : Core → Core) : (s.mapCore n f).clasp = s.clasp := rfl
@[simp] theorem State.mapCore_claspReqs (s : State) (n : CoreNo) (f : Core → Core) : (s.mapCore n f).claspReqs = s.claspReqs := rfl
@[simp] theorem State.mapCore_locket (s : State) (n : CoreNo) (f : Core → Core) : (s.mapCore n f).locket = s.locket := rfl
@[simp] theorem State.mapCore_stash (s : State) (n : CoreNo) (f : Core → Core) : (s.mapCore n f).stash = s.stash := rfl
@[simp] theorem State.mapCore_stashRx (s : State) (n : CoreNo) (f : Core → Core) : (s.mapCore n f).stashRx = s.stashRx := rfl
@[simp] theorem State.mapCore_starts (s : State) (n : CoreNo) (f : Core → Core) : (s.mapCore n f).starts = s.starts := rfl
@[simp] theorem State.mapCore_ctl (s : State) (n : CoreNo) (f : Core → Core) : (s.mapCore n f).ctl = s.ctl := rfl
@[simp] theorem State.mapCore_torus (s : State) (n : CoreNo) (f : Core → Core) : (s.mapCore n f).torus = s.torus := rfl
@[simp] theorem State.mapCore_events (s : State) (n : CoreNo) (f : Core → Core) : (s.mapCore n f).events = s.events := rfl
@[simp] theorem State.mapCore_funcready (s : State) (n : CoreNo) (f : Core → Core) : (s.mapCore n f).funcready = s.funcready := rfl
@[simp] theorem State.mapCore_clReady (s : State) (n : CoreNo) (f : Core → Core) : (s.mapCore n f).clReady = s.clReady := rfl
@[simp] theorem State.mapCore_stops (s : State) (n : CoreNo) (f : Core → Core) : (s.mapCore n f).stops = s.stops := rfl
@[simp] theorem State.mapCore_rates (s : State) (n : CoreNo) (f : Core → Core) : (s.mapCore n f).rates = s.rates := rfl
@[simp] theorem State.mapCore_bar2 (s : State) (n : CoreNo) (f : Core → Core) : (s.mapCore n f).bar2 = s.bar2 := rfl
@[simp] theorem State.mapCore_bar2Done (s : State) (n : CoreNo) (f : Core → Core) : (s.mapCore n f).bar2Done = s.bar2Done := rfl
@[simp] theorem State.mapCore_bar0Done (s : State) (n : CoreNo) (f : Core → Core) : (s.mapCore n f).bar0Done = s.bar0Done := rfl
@[simp] theorem State.mapCore_duty (s : State) (n : CoreNo) (f : Core → Core) : (s.mapCore n f).duty = s.duty := rfl
@[simp] theorem State.mapCore_governed (s : State) (n : CoreNo) (f : Core → Core) : (s.mapCore n f).governed = s.governed := rfl
@[simp] theorem State.mapCore_measures (s : State) (n : CoreNo) (f : Core → Core) : (s.mapCore n f).measures = s.measures := rfl
@[simp] theorem State.mapCore_measured (s : State) (n : CoreNo) (f : Core → Core) : (s.mapCore n f).measured = s.measured := rfl
@[simp] theorem State.mapCore_spdm (s : State) (n : CoreNo) (f : Core → Core) : (s.mapCore n f).spdm = s.spdm := rfl
@[simp] theorem State.mapCore_norlys (s : State) (n : CoreNo) (f : Core → Core) : (s.mapCore n f).norlys = s.norlys := rfl
@[simp] theorem State.mapCore_norlysDone (s : State) (n : CoreNo) (f : Core → Core) : (s.mapCore n f).norlysDone = s.norlysDone := rfl

/-! ## mapDie -/

@[simp] theorem State.mapDie_clk (s : State) (d : Nat) (f : Die → Die) : (s.mapDie d f).clk = s.clk := rfl
@[simp] theorem State.mapDie_agenda (s : State) (d : Nat) (f : Die → Die) : (s.mapDie d f).agenda = s.agenda := rfl
@[simp] theorem State.mapDie_fresh (s : State) (d : Nat) (f : Die → Die) : (s.mapDie d f).fresh = s.fresh := rfl
@[simp] theorem State.mapDie_iss (s : State) (d : Nat) (f : Die → Die) : (s.mapDie d f).iss = s.iss := rfl
@[simp] theorem State.mapDie_powered (s : State) (d : Nat) (f : Die → Die) : (s.mapDie d f).powered = s.powered := rfl
@[simp] theorem State.mapDie_dram (s : State) (d : Nat) (f : Die → Die) : (s.mapDie d f).dram = s.dram := rfl
@[simp] theorem State.mapDie_spad (s : State) (d : Nat) (f : Die → Die) : (s.mapDie d f).spad = s.spad := rfl
@[simp] theorem State.mapDie_ctxs (s : State) (d : Nat) (f : Die → Die) : (s.mapDie d f).ctxs = s.ctxs := rfl
@[simp] theorem State.mapDie_cores (s : State) (d : Nat) (f : Die → Die) : (s.mapDie d f).cores = s.cores := rfl
@[simp] theorem State.mapDie_tlb (s : State) (d : Nat) (f : Die → Die) : (s.mapDie d f).tlb = s.tlb := rfl
@[simp] theorem State.mapDie_migHeld (s : State) (d : Nat) (f : Die → Die) : (s.mapDie d f).migHeld = s.migHeld := rfl
@[simp] theorem State.mapDie_migOpen (s : State) (d : Nat) (f : Die → Die) : (s.mapDie d f).migOpen = s.migOpen := rfl
@[simp] theorem State.mapDie_recs (s : State) (d : Nat) (f : Die → Die) : (s.mapDie d f).recs = s.recs := rfl
@[simp] theorem State.mapDie_queues (s : State) (d : Nat) (f : Die → Die) : (s.mapDie d f).queues = s.queues := rfl
@[simp] theorem State.mapDie_acl (s : State) (d : Nat) (f : Die → Die) : (s.mapDie d f).acl = s.acl := rfl
@[simp] theorem State.mapDie_peers (s : State) (d : Nat) (f : Die → Die) : (s.mapDie d f).peers = s.peers := rfl
@[simp] theorem State.mapDie_ends (s : State) (d : Nat) (f : Die → Die) : (s.mapDie d f).ends = s.ends := rfl
@[simp] theorem State.mapDie_endErr (s : State) (d : Nat) (f : Die → Die) : (s.mapDie d f).endErr = s.endErr := rfl
@[simp] theorem State.mapDie_sends (s : State) (d : Nat) (f : Die → Die) : (s.mapDie d f).sends = s.sends := rfl
@[simp] theorem State.mapDie_inbox (s : State) (d : Nat) (f : Die → Die) : (s.mapDie d f).inbox = s.inbox := rfl
@[simp] theorem State.mapDie_out (s : State) (d : Nat) (f : Die → Die) : (s.mapDie d f).out = s.out := rfl
@[simp] theorem State.mapDie_rings (s : State) (d : Nat) (f : Die → Die) : (s.mapDie d f).rings = s.rings := rfl
@[simp] theorem State.mapDie_experts (s : State) (d : Nat) (f : Die → Die) : (s.mapDie d f).experts = s.experts := rfl
@[simp] theorem State.mapDie_graphs (s : State) (d : Nat) (f : Die → Die) : (s.mapDie d f).graphs = s.graphs := rfl
@[simp] theorem State.mapDie_installs (s : State) (d : Nat) (f : Die → Die) : (s.mapDie d f).installs = s.installs := rfl
@[simp] theorem State.mapDie_removals (s : State) (d : Nat) (f : Die → Die) : (s.mapDie d f).removals = s.removals := rfl
@[simp] theorem State.mapDie_searches (s : State) (d : Nat) (f : Die → Die) : (s.mapDie d f).searches = s.searches := rfl
@[simp] theorem State.mapDie_groupMap (s : State) (d : Nat) (f : Die → Die) : (s.mapDie d f).groupMap = s.groupMap := rfl
@[simp] theorem State.mapDie_groupMask (s : State) (d : Nat) (f : Die → Die) : (s.mapDie d f).groupMask = s.groupMask := rfl
@[simp] theorem State.mapDie_episodes (s : State) (d : Nat) (f : Die → Die) : (s.mapDie d f).episodes = s.episodes := rfl
@[simp] theorem State.mapDie_clasp (s : State) (d : Nat) (f : Die → Die) : (s.mapDie d f).clasp = s.clasp := rfl
@[simp] theorem State.mapDie_claspReqs (s : State) (d : Nat) (f : Die → Die) : (s.mapDie d f).claspReqs = s.claspReqs := rfl
@[simp] theorem State.mapDie_locket (s : State) (d : Nat) (f : Die → Die) : (s.mapDie d f).locket = s.locket := rfl
@[simp] theorem State.mapDie_stash (s : State) (d : Nat) (f : Die → Die) : (s.mapDie d f).stash = s.stash := rfl
@[simp] theorem State.mapDie_stashRx (s : State) (d : Nat) (f : Die → Die) : (s.mapDie d f).stashRx = s.stashRx := rfl
@[simp] theorem State.mapDie_starts (s : State) (d : Nat) (f : Die → Die) : (s.mapDie d f).starts = s.starts := rfl
@[simp] theorem State.mapDie_ctl (s : State) (d : Nat) (f : Die → Die) : (s.mapDie d f).ctl = s.ctl := rfl
@[simp] theorem State.mapDie_torus (s : State) (d : Nat) (f : Die → Die) : (s.mapDie d f).torus = s.torus := rfl
@[simp] theorem State.mapDie_events (s : State) (d : Nat) (f : Die → Die) : (s.mapDie d f).events = s.events := rfl
@[simp] theorem State.mapDie_funcready (s : State) (d : Nat) (f : Die → Die) : (s.mapDie d f).funcready = s.funcready := rfl
@[simp] theorem State.mapDie_clReady (s : State) (d : Nat) (f : Die → Die) : (s.mapDie d f).clReady = s.clReady := rfl
@[simp] theorem State.mapDie_stops (s : State) (d : Nat) (f : Die → Die) : (s.mapDie d f).stops = s.stops := rfl
@[simp] theorem State.mapDie_rates (s : State) (d : Nat) (f : Die → Die) : (s.mapDie d f).rates = s.rates := rfl
@[simp] theorem State.mapDie_bar2 (s : State) (d : Nat) (f : Die → Die) : (s.mapDie d f).bar2 = s.bar2 := rfl
@[simp] theorem State.mapDie_bar2Done (s : State) (d : Nat) (f : Die → Die) : (s.mapDie d f).bar2Done = s.bar2Done := rfl
@[simp] theorem State.mapDie_bar0Done (s : State) (d : Nat) (f : Die → Die) : (s.mapDie d f).bar0Done = s.bar0Done := rfl
@[simp] theorem State.mapDie_duty (s : State) (d : Nat) (f : Die → Die) : (s.mapDie d f).duty = s.duty := rfl
@[simp] theorem State.mapDie_governed (s : State) (d : Nat) (f : Die → Die) : (s.mapDie d f).governed = s.governed := rfl
@[simp] theorem State.mapDie_measures (s : State) (d : Nat) (f : Die → Die) : (s.mapDie d f).measures = s.measures := rfl
@[simp] theorem State.mapDie_measured (s : State) (d : Nat) (f : Die → Die) : (s.mapDie d f).measured = s.measured := rfl
@[simp] theorem State.mapDie_spdm (s : State) (d : Nat) (f : Die → Die) : (s.mapDie d f).spdm = s.spdm := rfl
@[simp] theorem State.mapDie_norlys (s : State) (d : Nat) (f : Die → Die) : (s.mapDie d f).norlys = s.norlys := rfl
@[simp] theorem State.mapDie_norlysDone (s : State) (d : Nat) (f : Die → Die) : (s.mapDie d f).norlysDone = s.norlysDone := rfl

/-! ## mapMe -/

@[simp] theorem State.mapMe_clk (s : State) (f : Ctx → Ctx) : (s.mapMe f).clk = s.clk := rfl
@[simp] theorem State.mapMe_agenda (s : State) (f : Ctx → Ctx) : (s.mapMe f).agenda = s.agenda := rfl
@[simp] theorem State.mapMe_fresh (s : State) (f : Ctx → Ctx) : (s.mapMe f).fresh = s.fresh := rfl
@[simp] theorem State.mapMe_iss (s : State) (f : Ctx → Ctx) : (s.mapMe f).iss = s.iss := rfl
@[simp] theorem State.mapMe_powered (s : State) (f : Ctx → Ctx) : (s.mapMe f).powered = s.powered := rfl
@[simp] theorem State.mapMe_dram (s : State) (f : Ctx → Ctx) : (s.mapMe f).dram = s.dram := rfl
@[simp] theorem State.mapMe_spad (s : State) (f : Ctx → Ctx) : (s.mapMe f).spad = s.spad := rfl
@[simp] theorem State.mapMe_cores (s : State) (f : Ctx → Ctx) : (s.mapMe f).cores = s.cores := rfl
@[simp] theorem State.mapMe_dies (s : State) (f : Ctx → Ctx) : (s.mapMe f).dies = s.dies := rfl
@[simp] theorem State.mapMe_tlb (s : State) (f : Ctx → Ctx) : (s.mapMe f).tlb = s.tlb := rfl
@[simp] theorem State.mapMe_migHeld (s : State) (f : Ctx → Ctx) : (s.mapMe f).migHeld = s.migHeld := rfl
@[simp] theorem State.mapMe_migOpen (s : State) (f : Ctx → Ctx) : (s.mapMe f).migOpen = s.migOpen := rfl
@[simp] theorem State.mapMe_recs (s : State) (f : Ctx → Ctx) : (s.mapMe f).recs = s.recs := rfl
@[simp] theorem State.mapMe_queues (s : State) (f : Ctx → Ctx) : (s.mapMe f).queues = s.queues := rfl
@[simp] theorem State.mapMe_acl (s : State) (f : Ctx → Ctx) : (s.mapMe f).acl = s.acl := rfl
@[simp] theorem State.mapMe_peers (s : State) (f : Ctx → Ctx) : (s.mapMe f).peers = s.peers := rfl
@[simp] theorem State.mapMe_ends (s : State) (f : Ctx → Ctx) : (s.mapMe f).ends = s.ends := rfl
@[simp] theorem State.mapMe_endErr (s : State) (f : Ctx → Ctx) : (s.mapMe f).endErr = s.endErr := rfl
@[simp] theorem State.mapMe_sends (s : State) (f : Ctx → Ctx) : (s.mapMe f).sends = s.sends := rfl
@[simp] theorem State.mapMe_inbox (s : State) (f : Ctx → Ctx) : (s.mapMe f).inbox = s.inbox := rfl
@[simp] theorem State.mapMe_out (s : State) (f : Ctx → Ctx) : (s.mapMe f).out = s.out := rfl
@[simp] theorem State.mapMe_rings (s : State) (f : Ctx → Ctx) : (s.mapMe f).rings = s.rings := rfl
@[simp] theorem State.mapMe_experts (s : State) (f : Ctx → Ctx) : (s.mapMe f).experts = s.experts := rfl
@[simp] theorem State.mapMe_graphs (s : State) (f : Ctx → Ctx) : (s.mapMe f).graphs = s.graphs := rfl
@[simp] theorem State.mapMe_installs (s : State) (f : Ctx → Ctx) : (s.mapMe f).installs = s.installs := rfl
@[simp] theorem State.mapMe_removals (s : State) (f : Ctx → Ctx) : (s.mapMe f).removals = s.removals := rfl
@[simp] theorem State.mapMe_searches (s : State) (f : Ctx → Ctx) : (s.mapMe f).searches = s.searches := rfl
@[simp] theorem State.mapMe_groupMap (s : State) (f : Ctx → Ctx) : (s.mapMe f).groupMap = s.groupMap := rfl
@[simp] theorem State.mapMe_groupMask (s : State) (f : Ctx → Ctx) : (s.mapMe f).groupMask = s.groupMask := rfl
@[simp] theorem State.mapMe_episodes (s : State) (f : Ctx → Ctx) : (s.mapMe f).episodes = s.episodes := rfl
@[simp] theorem State.mapMe_clasp (s : State) (f : Ctx → Ctx) : (s.mapMe f).clasp = s.clasp := rfl
@[simp] theorem State.mapMe_claspReqs (s : State) (f : Ctx → Ctx) : (s.mapMe f).claspReqs = s.claspReqs := rfl
@[simp] theorem State.mapMe_locket (s : State) (f : Ctx → Ctx) : (s.mapMe f).locket = s.locket := rfl
@[simp] theorem State.mapMe_stash (s : State) (f : Ctx → Ctx) : (s.mapMe f).stash = s.stash := rfl
@[simp] theorem State.mapMe_stashRx (s : State) (f : Ctx → Ctx) : (s.mapMe f).stashRx = s.stashRx := rfl
@[simp] theorem State.mapMe_starts (s : State) (f : Ctx → Ctx) : (s.mapMe f).starts = s.starts := rfl
@[simp] theorem State.mapMe_ctl (s : State) (f : Ctx → Ctx) : (s.mapMe f).ctl = s.ctl := rfl
@[simp] theorem State.mapMe_torus (s : State) (f : Ctx → Ctx) : (s.mapMe f).torus = s.torus := rfl
@[simp] theorem State.mapMe_events (s : State) (f : Ctx → Ctx) : (s.mapMe f).events = s.events := rfl
@[simp] theorem State.mapMe_funcready (s : State) (f : Ctx → Ctx) : (s.mapMe f).funcready = s.funcready := rfl
@[simp] theorem State.mapMe_clReady (s : State) (f : Ctx → Ctx) : (s.mapMe f).clReady = s.clReady := rfl
@[simp] theorem State.mapMe_stops (s : State) (f : Ctx → Ctx) : (s.mapMe f).stops = s.stops := rfl
@[simp] theorem State.mapMe_rates (s : State) (f : Ctx → Ctx) : (s.mapMe f).rates = s.rates := rfl
@[simp] theorem State.mapMe_bar2 (s : State) (f : Ctx → Ctx) : (s.mapMe f).bar2 = s.bar2 := rfl
@[simp] theorem State.mapMe_bar2Done (s : State) (f : Ctx → Ctx) : (s.mapMe f).bar2Done = s.bar2Done := rfl
@[simp] theorem State.mapMe_bar0Done (s : State) (f : Ctx → Ctx) : (s.mapMe f).bar0Done = s.bar0Done := rfl
@[simp] theorem State.mapMe_duty (s : State) (f : Ctx → Ctx) : (s.mapMe f).duty = s.duty := rfl
@[simp] theorem State.mapMe_governed (s : State) (f : Ctx → Ctx) : (s.mapMe f).governed = s.governed := rfl
@[simp] theorem State.mapMe_measures (s : State) (f : Ctx → Ctx) : (s.mapMe f).measures = s.measures := rfl
@[simp] theorem State.mapMe_measured (s : State) (f : Ctx → Ctx) : (s.mapMe f).measured = s.measured := rfl
@[simp] theorem State.mapMe_spdm (s : State) (f : Ctx → Ctx) : (s.mapMe f).spdm = s.spdm := rfl
@[simp] theorem State.mapMe_norlys (s : State) (f : Ctx → Ctx) : (s.mapMe f).norlys = s.norlys := rfl
@[simp] theorem State.mapMe_norlysDone (s : State) (f : Ctx → Ctx) : (s.mapMe f).norlysDone = s.norlysDone := rfl

/-! ## Reading contexts, cores and dies after an update -/

theorem State.ctx_setCtx (s : State) (k j : CtxKey) (c : Ctx) : (s.setCtx k c).ctx j = if j = k then c else s.ctx j := by
  unfold State.ctx State.setCtx
  simp only [tget_tput]
  by_cases h : j = k
  · simp [h]
  · rw [if_neg h, if_neg (fun e => h (BitVec.eq_of_toNat_eq e))]

@[simp] theorem State.ctx_setCtx_same (s : State) (k : CtxKey) (c : Ctx) : (s.setCtx k c).ctx k = c := by
  rw [State.ctx_setCtx, if_pos rfl]

theorem State.ctx_mapCtx (s : State) (k j : CtxKey) (f : Ctx → Ctx) :
    (s.mapCtx k f).ctx j = if j = k then f (s.ctx k) else s.ctx j := State.ctx_setCtx s k j _

@[simp] theorem State.ctx_mapCtx_same (s : State) (k : CtxKey) (f : Ctx → Ctx) : (s.mapCtx k f).ctx k = f (s.ctx k) := by
  rw [State.ctx_mapCtx, if_pos rfl]

@[simp] theorem State.me_mapMe (s : State) (f : Ctx → Ctx) : (s.mapMe f).me = f s.me :=
  State.ctx_mapCtx_same s s.iss.key f

theorem State.core_setCore (s : State) (n j : CoreNo) (c : Core) :
    (s.setCore n c).core j = if j = n then c else s.core j := by
  unfold State.core State.setCore
  simp only [tget_tput]
  by_cases h : j = n
  · simp [h]
  · rw [if_neg h, if_neg (fun e => h (BitVec.eq_of_toNat_eq e))]

@[simp] theorem State.core_setCore_same (s : State) (n : CoreNo) (c : Core) : (s.setCore n c).core n = c := by
  rw [State.core_setCore, if_pos rfl]

theorem State.core_mapCore (s : State) (n j : CoreNo) (f : Core → Core) :
    (s.mapCore n f).core j = if j = n then f (s.core n) else s.core j := State.core_setCore s n j _

@[simp] theorem State.core_mapCore_same (s : State) (n : CoreNo) (f : Core → Core) :
    (s.mapCore n f).core n = f (s.core n) := by
  rw [State.core_mapCore, if_pos rfl]

theorem State.die_setDie (s : State) (d j : Nat) (x : Die) : (s.setDie d x).die j = if j = d then x else s.die j :=
  tget_tput _ _ _ _ _

theorem State.die_mapDie (s : State) (d j : Nat) (f : Die → Die) :
    (s.mapDie d f).die j = if j = d then f (s.die d) else s.die j := State.die_setDie s d j _

@[simp] theorem State.die_mapDie_same (s : State) (d : Nat) (f : Die → Die) : (s.mapDie d f).die d = f (s.die d) := by
  rw [State.die_mapDie, if_pos rfl]

@[simp] theorem State.core_setCtx (s : State) (k : CtxKey) (c : Ctx) (n : CoreNo) :
    (s.setCtx k c).core n = s.core n := rfl
@[simp] theorem State.core_mapCtx (s : State) (k : CtxKey) (f : Ctx → Ctx) (n : CoreNo) :
    (s.mapCtx k f).core n = s.core n := rfl
@[simp] theorem State.core_mapMe (s : State) (f : Ctx → Ctx) (n : CoreNo) : (s.mapMe f).core n = s.core n := rfl
@[simp] theorem State.ctx_setCore (s : State) (n : CoreNo) (c : Core) (k : CtxKey) :
    (s.setCore n c).ctx k = s.ctx k := rfl
@[simp] theorem State.ctx_mapCore (s : State) (n : CoreNo) (f : Core → Core) (k : CtxKey) :
    (s.mapCore n f).ctx k = s.ctx k := rfl
@[simp] theorem State.ctx_setDie (s : State) (d : Nat) (x : Die) (k : CtxKey) : (s.setDie d x).ctx k = s.ctx k := rfl
@[simp] theorem State.core_setDie (s : State) (d : Nat) (x : Die) (n : CoreNo) : (s.setDie d x).core n = s.core n := rfl
@[simp] theorem State.die_setCtx (s : State) (k : CtxKey) (c : Ctx) (d : Nat) : (s.setCtx k c).die d = s.die d := rfl
@[simp] theorem State.die_setCore (s : State) (n : CoreNo) (c : Core) (d : Nat) : (s.setCore n c).die d = s.die d := rfl
@[simp] theorem State.die_mapCtx (s : State) (k : CtxKey) (f : Ctx → Ctx) (d : Nat) :
    (s.mapCtx k f).die d = s.die d := rfl
@[simp] theorem State.die_mapCore (s : State) (n : CoreNo) (f : Core → Core) (d : Nat) :
    (s.mapCore n f).die d = s.die d := rfl
@[simp] theorem State.ctx_mapDie (s : State) (d : Nat) (f : Die → Die) (k : CtxKey) :
    (s.mapDie d f).ctx k = s.ctx k := rfl
@[simp] theorem State.core_mapDie (s : State) (d : Nat) (f : Die → Die) (n : CoreNo) :
    (s.mapDie d f).core n = s.core n := rfl

/-! ## Frames of the updates -/

theorem onlyCtx_refl (s : State) (k : CtxKey) : OnlyCtx s s k := ⟨rfl, fun _ _ => rfl⟩

theorem onlyCtx_setCtx (s : State) (k : CtxKey) (c : Ctx) : OnlyCtx s (s.setCtx k c) k :=
  ⟨rfl, fun j h => by rw [State.ctx_setCtx, if_neg h]⟩

theorem onlyCtx_mapCtx (s : State) (k : CtxKey) (f : Ctx → Ctx) : OnlyCtx s (s.mapCtx k f) k := onlyCtx_setCtx s k _

theorem onlyCtx_mapMe (s : State) (f : Ctx → Ctx) : OnlyCtx s (s.mapMe f) s.iss.key := onlyCtx_setCtx s _ _

theorem onlyCtx_trans {s t u : State} {k : CtxKey} (h : OnlyCtx s t k) (g : OnlyCtx t u k) : OnlyCtx s u k :=
  ⟨by rw [g.1, h.1], fun j hj => (g.2 j hj).trans (h.2 j hj)⟩

theorem onlyCore_refl (s : State) (n : CoreNo) : OnlyCore s s n := ⟨rfl, fun _ _ => rfl⟩

theorem onlyCore_mapCore (s : State) (n : CoreNo) (f : Core → Core) : OnlyCore s (s.mapCore n f) n :=
  ⟨rfl, fun j h => by rw [State.core_mapCore, if_neg h]⟩

theorem onlyCore_trans {s t u : State} {n : CoreNo} (h : OnlyCore s t n) (g : OnlyCore t u n) : OnlyCore s u n :=
  ⟨by rw [g.1, h.1], fun j hj => (g.2 j hj).trans (h.2 j hj)⟩

theorem onlyDie_mapDie (s : State) (d : Nat) (f : Die → Die) : OnlyDie s (s.mapDie d f) d :=
  ⟨rfl, fun j h => by rw [State.die_mapDie, if_neg h]⟩

end Sys2Proof.Machine
end

