-- ==== Sys2Proof/Laws/Memory.lean ====
section
/-! SUPPORT. Laws of the memories: what a write to a scratchpad and a commit to global memory change, and that every
operation keeps the canonical form. -/

namespace Sys2Proof.Machine

/-- What holds of a state, and of every state that one step of a fold makes, holds of the fold. -/
theorem foldl_keeps {α β : Type} (P : α → Prop) (f : α → β → α) (h : ∀ a b, P a → P (f a b)) (l : List β) (a : α)
    (ha : P a) : P (l.foldl f a) := by
  induction l generalizing a with
  | nil => exact ha
  | cons b r ih => exact ih (f a b) (h a b ha)

theorem memWf_iff (s : State) : s.memWf = true ↔ Memory.wf s.dram.bytes = true ∧ Memory.wf s.spad.bytes = true := by
  unfold State.memWf; rw [Bool.and_eq_true]

/-- An operation that changes no memory keeps the memories canonical. -/
theorem memWf_congr {s t : State} (hd : t.dram.bytes = s.dram.bytes) (hs : t.spad.bytes = s.spad.bytes)
    (h : s.memWf = true) : t.memWf = true := by
  unfold State.memWf at *; rw [hd, hs]; exact h

theorem safe_iff (s : State) :
    s.safe = true ↔ s.memWf = true ∧ s.torusLegal = true ∧ s.pcapLegal = true ∧ s.dutyLegal = true := by
  unfold State.safe; rw [Bool.and_eq_true, Bool.and_eq_true, Bool.and_eq_true, and_assoc, and_assoc]

/-- An operation that changes no memory, no dimension, no coordinate, no power cap and no duty keeps a state safe. -/
theorem safe_congr {s t : State} (hd : t.dram.bytes = s.dram.bytes) (hs : t.spad.bytes = s.spad.bytes)
    (h1 : t.torus.dims = s.torus.dims) (h2 : t.torus.coord = s.torus.coord) (h3 : t.ctl.pcap = s.ctl.pcap)
    (h4 : t.duty = s.duty) (h : s.safe = true) : t.safe = true := by
  rw [safe_iff] at *
  refine ⟨memWf_congr hd hs h.1, ?_, ?_, ?_⟩
  · unfold State.torusLegal at *; rw [h1, h2]; exact h.2.1
  · unfold State.pcapLegal at *; rw [h3]; exact h.2.2.1
  · unfold State.dutyLegal at *; rw [h4]; exact h.2.2.2

/-- An operation that writes memory canonically, and changes none of the rest, keeps a state safe. -/
theorem safe_of_memWf {s t : State} (hm : s.memWf = true → t.memWf = true)
    (h1 : t.torus.dims = s.torus.dims) (h2 : t.torus.coord = s.torus.coord) (h3 : t.ctl.pcap = s.ctl.pcap)
    (h4 : t.duty = s.duty) (h : s.safe = true) : t.safe = true := by
  rw [safe_iff] at *
  refine ⟨hm h.1, ?_, ?_, ?_⟩
  · unfold State.torusLegal at *; rw [h1, h2]; exact h.2.1
  · unfold State.pcapLegal at *; rw [h3]; exact h.2.2.1
  · unfold State.dutyLegal at *; rw [h4]; exact h.2.2.2

/-! ## Contexts, cores, dies -/

@[simp] theorem setCtx_safe (s : State) (k : CtxKey) (c : Ctx) : (s.setCtx k c).safe = s.safe := rfl
@[simp] theorem mapCtx_safe (s : State) (k : CtxKey) (f : Ctx → Ctx) : (s.mapCtx k f).safe = s.safe := rfl
@[simp] theorem mapMe_safe (s : State) (f : Ctx → Ctx) : (s.mapMe f).safe = s.safe := rfl
@[simp] theorem setCore_safe (s : State) (n : CoreNo) (c : Core) : (s.setCore n c).safe = s.safe := rfl
@[simp] theorem mapCore_safe (s : State) (n : CoreNo) (f : Core → Core) : (s.mapCore n f).safe = s.safe := rfl
@[simp] theorem setDie_safe (s : State) (d : Nat) (x : Die) : (s.setDie d x).safe = s.safe := rfl
@[simp] theorem mapDie_safe (s : State) (d : Nat) (f : Die → Die) : (s.mapDie d f).safe = s.safe := rfl
@[simp] theorem leave_safe (s : State) (k : CtxKey) : (s.leave k).safe = s.safe := rfl
@[simp] theorem makeReady_safe (s : State) (k : CtxKey) : (s.makeReady k).safe = s.safe := rfl
@[simp] theorem idle_safe (s : State) (k : CtxKey) : (s.idle k).safe = s.safe := rfl
@[simp] theorem fetchWait_safe (s : State) (k : CtxKey) (b : Nat) : (s.fetchWait k b).safe = s.safe := rfl
@[simp] theorem bump_safe (s : State) : s.bump.safe = s.safe := rfl
@[simp] theorem post_safe (s : State) (k : CtxKey) (i : TrapInfo) (n : Nat) (h : Option HeldOp) :
    (s.post k i n h).safe = s.safe := rfl

@[simp] theorem park_safe (s : State) (k : CtxKey) (l : List ParkCond) : (s.park k l).safe = s.safe := by
  unfold State.park; simp only; split <;> rfl

@[simp] theorem event_safe (s : State) (a b c : Nat) : (s.event a b c).safe = s.safe := by
  unfold State.event; simp only; split <;> rfl

/-- A bubble changes the clk of the next issue of its core alone (R90). -/
theorem bubble_core (s : State) (n j : CoreNo) (pc : BitVec 55) :
    (s.bubble n pc).core j = if j = n then { s.core n with nextIssue := s.branchClk n pc } else s.core j := by
  unfold State.bubble State.branchClk State.resident
  split
  · exact State.core_mapCore s n j _
  · split
    · next h => rw [h]
    · rfl

theorem bubble_frame (s : State) (n : CoreNo) (pc : BitVec 55) :
    s.bubble n pc = { s with cores := (s.bubble n pc).cores } := by
  unfold State.bubble; split <;> rfl

@[simp] theorem bubble_safe (s : State) (n : CoreNo) (pc : BitVec 55) : (s.bubble n pc).safe = s.safe := by
  rw [bubble_frame]; rfl
@[simp] theorem bubble_ctx (s : State) (n : CoreNo) (pc : BitVec 55) (k : CtxKey) : (s.bubble n pc).ctx k = s.ctx k := by
  rw [bubble_frame]; rfl

@[simp] theorem cache_safe (s : State) (u va : Nat) : (s.cache u va).safe = s.safe := by
  unfold State.cache; split <;> rfl

/-- A translation that is kept changes the translation units alone (R200). -/
theorem cache_frame (s : State) (u va : Nat) : s.cache u va = { s with tlb := (s.cache u va).tlb } := by
  unfold State.cache; split <;> rfl

/-! ## Data rates and traps -/

theorem setRate_safe (s : State) (n : Nat) (r : RateState) (h : s.safe = true) : (s.setRate n r).safe = true :=
  safe_congr rfl rfl rfl rfl rfl rfl h

/-- A change of requests and RATESTAT alone (R361). -/
def RatesOnly (s t : State) : Prop := t = { s with rates := t.rates, ctl := { s.ctl with ratestat := t.ctl.ratestat } }

theorem setRate_only {s t : State} (n : Nat) (r : RateState) (h : RatesOnly s t) : RatesOnly s (t.setRate n r) := by
  unfold RatesOnly at *; rw [h]; rfl

/-- Settling the data rates changes requests and RATESTAT alone (R361). -/
theorem settleRates_only (s : State) : RatesOnly s s.settleRates := by
  unfold State.settleRates
  refine foldl_keeps (RatesOnly s) _ (fun t e ht => ?_) _ _ rfl
  split
  · split
    · exact setRate_only _ _ ht
    · exact ht
  · exact ht

theorem forceRates_only (s : State) : RatesOnly s s.forceRates := by
  unfold State.forceRates
  refine foldl_keeps (RatesOnly s) _ (fun t e ht => ?_) _ _ rfl
  split
  · split
    · exact setRate_only _ _ ht
    · exact ht
  · exact ht

theorem ratesOnly_safe {s t : State} (h : RatesOnly s t) (hs : s.safe = true) : t.safe = true := by
  rw [h]; exact safe_congr rfl rfl rfl rfl rfl rfl hs

theorem settleRates_safe (s : State) (h : s.safe = true) : s.settleRates.safe = true :=
  ratesOnly_safe (settleRates_only s) h

/-- The passing of clk changes the clk, requests and RATESTAT alone (R361). -/
theorem tick_safe (s : State) (n : Nat) (h : s.safe = true) : (s.tick n).safe = true :=
  ratesOnly_safe (forceRates_only _) (safe_congr rfl rfl rfl rfl rfl rfl h)

theorem takeTrap_safe (k : CtxKey) (t : TrapInfo) (epc : BitVec 55) (m : Nat) (a b : Bool) (x : Option HeldOp)
    (s : State) (h : s.safe = true) : (takeTrap k t epc m a b x s).safe = true :=
  settleRates_safe _ (by rw [bubble_safe]; exact h)

@[simp] theorem settleRates_ctx (s : State) (k : CtxKey) : s.settleRates.ctx k = s.ctx k := by
  rw [settleRates_only]; rfl
@[simp] theorem settleRates_core (s : State) (n : CoreNo) : s.settleRates.core n = s.core n := by
  rw [settleRates_only]; rfl

/-- Taking a trap is the record of R339, SYS and the vector, and one bubble. -/
theorem takeTrap_trapped (k : CtxKey) (t : TrapInfo) (epc : BitVec 55) (m : Nat) (a b : Bool) (x : Option HeldOp)
    (s : State) :
    Trapped s (takeTrap k t epc m a b x s) k
      { cause := causeWord t.code a b x.isSome, epc := epcWord epc (s.ctx k).sys, emask := word m,
        eaddr := t.eaddr, einfo := t.einfo } x t.code := by
  unfold takeTrap
  refine ⟨?_, fun j hj => ?_, ?_, fun j hj => ?_, ?_⟩
  · simp only
    rw [settleRates_only, bubble_frame]; rfl
  · simp only [settleRates_ctx, bubble_ctx]
    rw [State.ctx_mapCtx, if_neg hj]
  · simp only [settleRates_ctx, bubble_ctx, State.ctx_mapCtx_same]
    cases x <;> rfl
  · simp only [settleRates_core, bubble_core]
    rw [if_neg hj, State.core_mapCtx]
  · simp only [settleRates_core, bubble_core, if_true]
    rfl

/-- Taking a trap at issue (R46, R339). -/
theorem issueTrap_trapped (t : TrapInfo) (m : Nat) (s : State) :
    Trapped s (issueTrap t m s) s.iss.key
      { cause := causeWord t.code false false false, epc := epcWord s.iss.pcb s.me.sys, emask := word m,
        eaddr := t.eaddr, einfo := t.einfo } none t.code := takeTrap_trapped _ _ _ _ _ _ _ _

theorem returnFromTrap_safe (k : CtxKey) (s : State) (h : s.safe = true) : (returnFromTrap k s).safe = true := by
  unfold returnFromTrap
  simp only
  split
  · split
    · rw [bubble_safe]; exact h
    · rw [idle_safe, bubble_safe]; exact h
  · split
    · rw [leave_safe, mapCtx_safe, bubble_safe]; exact h
    · rw [bubble_safe]; exact h

/-! ## Scratchpads (R173 to R177) -/

/-- A write to a scratchpad changes the scratchpads and the dirty masks of probe slots alone; the memories stay
canonical. -/
theorem writeLocal_keeps (s : State) (core row : Nat) (m : Row256) (v : Row) (fill : Bool) :
    s.writeLocal core row m v fill =
        { s with spad := (s.writeLocal core row m v fill).spad, ctxs := (s.writeLocal core row m v fill).ctxs } ∧
      (s.writeLocal core row m v fill).spad.bytes =
        s.spad.bytes.write (spadKey core row) 256 (mergeRow (s.localRow core row) v m).toNat := by
  unfold State.writeLocal
  simp only
  split
  · exact ⟨rfl, rfl⟩
  · refine foldl_keeps (fun t : State => t = { s with spad := t.spad, ctxs := t.ctxs } ∧
      t.spad.bytes = s.spad.bytes.write (spadKey core row) 256 (mergeRow (s.localRow core row) v m).toNat)
      _ (fun t e ht => ?_) _ _ ⟨rfl, rfl⟩
    split
    · exact ht
    · exact ⟨by rw [State.mapCtx, State.setCtx, ht.1], ht.2⟩

theorem writeLocal_dram (s : State) (core row : Nat) (m : Row256) (v : Row) (fill : Bool) :
    (s.writeLocal core row m v fill).dram = s.dram := by rw [(writeLocal_keeps s core row m v fill).1]

theorem writeLocal_memWf (s : State) (core row : Nat) (m : Row256) (v : Row) (fill : Bool) (h : s.memWf = true) :
    (s.writeLocal core row m v fill).memWf = true := by
  rw [memWf_iff] at *
  rw [writeLocal_dram, (writeLocal_keeps s core row m v fill).2]
  exact ⟨h.1, memory_wf_write _ _ _ _ h.2⟩

theorem writeLocal_safe (s : State) (core row : Nat) (m : Row256) (v : Row) (fill : Bool) (h : s.safe = true) :
    (s.writeLocal core row m v fill).safe = true := by
  have e := (writeLocal_keeps s core row m v fill).1
  exact safe_of_memWf (writeLocal_memWf s core row m v fill) (by rw [e]) (by rw [e]) (by rw [e]) (by rw [e]) h

theorem writeRow_safe (s : State) (n : CoreNo) (r : Nat) (m : Row256) (v : Row) (h : s.safe = true) :
    (s.writeRow n r m v).safe = true := writeLocal_safe _ _ _ _ _ _ h

theorem clearDie_memWf (s : State) (d : Nat) (h : s.memWf = true) : (s.clearDie d).memWf = true := by
  rw [memWf_iff] at *
  exact ⟨h.1, twf_filter (0 : Byte) _ _ h.2⟩

theorem clearDie_safe (s : State) (d : Nat) (h : s.safe = true) : (s.clearDie d).safe = true :=
  safe_of_memWf (clearDie_memWf s d) rfl rfl rfl rfl h

/-! ## Global memory (R220) -/

/-- A commit changes global memory alone. -/
theorem commitBlk_frame (s : State) (b : Nat) (m : Row256) (v : Row) :
    s.commitBlk b m v = { s with dram := (s.commitBlk b m v).dram } := by
  unfold State.commitBlk; simp only; split <;> rfl

theorem commitBlk_memWf (s : State) (b : Nat) (m : Row256) (v : Row) (h : s.memWf = true) :
    (s.commitBlk b m v).memWf = true := by
  unfold State.commitBlk
  simp only
  split
  · exact h
  · rw [memWf_iff] at *
    exact ⟨memory_wf_write _ _ _ _ h.1, h.2⟩

theorem commitBlk_safe (s : State) (b : Nat) (m : Row256) (v : Row) (h : s.safe = true) :
    (s.commitBlk b m v).safe = true := by
  have e := commitBlk_frame s b m v
  exact safe_of_memWf (commitBlk_memWf s b m v) (by rw [e]) (by rw [e]) (by rw [e]) (by rw [e]) h

/-- A byte of no block of the commit stays as it was. -/
theorem commitBlk_other (s : State) (b j : Nat) (m : Row256) (v : Row) (h : j < b * 256 ∨ b * 256 + 256 ≤ j) :
    tget 0 j (s.commitBlk b m v).dram.bytes = tget 0 j s.dram.bytes := by
  unfold State.commitBlk
  simp only
  split
  · rfl
  · rw [tget_write, if_neg (by omega)]

theorem commitBytes_safe (s : State) (u va : Nat) (bs : List Byte) (h : s.safe = true) :
    (s.commitBytes u va bs).safe = true := by
  unfold State.commitBytes
  refine foldl_keeps (fun t : State => t.safe = true) _ (fun t p ht => ?_) _ _ h
  simp only
  split
  · exact ht
  · exact commitBlk_safe _ _ _ _ (by rw [cache_safe]; exact ht)

/-- Staging writes changes no memory. -/
theorem stageBytes_safe (s : State) (u : Nat) (k : CtxKey) (va : Nat) (bs : List Byte) (e : Nat) (h : s.safe = true) :
    (s.stageBytes u k va bs e).safe = true := by
  unfold State.stageBytes
  refine foldl_keeps (fun t : State => t.safe = true) _ (fun t p ht => ?_) _ _ h
  simp only
  split
  · exact ht
  · rw [mapCtx_safe, cache_safe]; exact ht

/-! ## Reset -/

theorem reset_memWf : State.reset.memWf = true := rfl

theorem resetModule_memWf (s : State) (h : s.memWf = true) : s.resetModule.memWf = true := by
  rw [memWf_iff] at *
  exact ⟨h.1, rfl⟩

/-! ## A meaning as a whole -/

/-- A meaning keeps a state safe where each of its parts does. -/
theorem sem_run_safe (m : Sem) (s t : State) (h : s.safe = true) (hr : m.run s = .next t)
    (hi : ∀ u, m.instead s = some u → u.safe = true) (ha : (m.arrive s).safe = true)
    (hp : ∀ u : State, u.safe = true → (m.onPark u).safe = true)
    (hs : ∀ u v : State, u.safe = true → m.stall u = some v → v.safe = true)
    (he : ∀ u : State, u.safe = true → (m.eff u).safe = true) : t.safe = true := by
  unfold Sem.run at hr
  split at hr
  · cases hr; exact h
  split at hr
  · cases hr; exact takeTrap_safe _ _ _ _ _ _ _ _ h
  · split at hr
    · next u hu => cases hr; exact hi _ hu
    · simp only at hr
      split at hr
      · split at hr
        · next v hv => cases hr; exact hs _ _ ha hv
        · cases hr; exact he _ ha
      · cases hr; rw [park_safe]; exact hp _ ha

end Sys2Proof.Machine
end

