-- ==== Sys2Proof/Laws/Access.lean ====
section
/-! SUPPORT. Laws of the accesses of a fused cluster that take effect after issue: what they change (R176). -/

namespace Sys2Proof.Machine

/-! ## Writes to a scratchpad, by context -/

/-- A write to a scratchpad changes of each context the dirty masks of its probe slots alone. -/
theorem writeLocal_ctx (s : State) (core row : Nat) (m : Row256) (v : Row) (fill : Bool) (j : CtxKey) :
    (s.writeLocal core row m v fill).ctx j =
      { s.ctx j with probe := ((s.writeLocal core row m v fill).ctx j).probe } := by
  unfold State.writeLocal
  simp only
  split
  · rfl
  · refine foldl_keeps (fun t : State => t.ctx j = { s.ctx j with probe := (t.ctx j).probe }) _ (fun t e ht => ?_) _ _ rfl
    split
    · exact ht
    · rw [State.ctx_mapCtx]
      split
      · next e => subst e; rw [ht]
      · exact ht

/-! ## What the accesses of a context change -/

/-- The scratchpads have changed, of the other contexts the probe slots, and of context `k` what its fused accesses write:
its registers and the replies that it awaits. -/
def FusedOnly (s t : State) (k : CtxKey) : Prop :=
  t = { s with spad := t.spad, ctxs := t.ctxs } ∧
    (∀ j, j ≠ k → t.ctx j = { s.ctx j with probe := (t.ctx j).probe }) ∧
    t.ctx k = { s.ctx k with
      regs := { (s.ctx k).regs with x := (t.ctx k).regs.x, v := (t.ctx k).regs.v }
      xwait := (t.ctx k).xwait, vwait := (t.ctx k).vwait, fused := (t.ctx k).fused, probe := (t.ctx k).probe }

theorem fusedOnly_refl (s : State) (k : CtxKey) : FusedOnly s s k := ⟨rfl, fun _ _ => rfl, rfl⟩

theorem fusedOnly_trans {s t u : State} {k : CtxKey} (h : FusedOnly s t k) (g : FusedOnly t u k) : FusedOnly s u k :=
  ⟨by rw [g.1, h.1], fun j hj => by rw [g.2.1 j hj, h.2.1 j hj], by rw [g.2.2, h.2.2]⟩

theorem fusedOnly_writeLocal (s : State) (k : CtxKey) (core row : Nat) (m : Row256) (v : Row) (fill : Bool) :
    FusedOnly s (s.writeLocal core row m v fill) k := by
  refine ⟨(writeLocal_keeps s core row m v fill).1, fun j _ => writeLocal_ctx s core row m v fill j, ?_⟩
  rw [writeLocal_ctx s core row m v fill k]

theorem fusedOnly_mapCtx (s : State) (k : CtxKey) (f : Ctx → Ctx)
    (hf : ∀ c, f c = { c with regs := { c.regs with x := (f c).regs.x, v := (f c).regs.v }
                              xwait := (f c).xwait, vwait := (f c).vwait, fused := (f c).fused }) :
    FusedOnly s (s.mapCtx k f) k := by
  refine ⟨rfl, fun j hj => by rw [State.ctx_mapCtx, if_neg hj], ?_⟩
  rw [State.ctx_mapCtx_same, hf]

theorem deliverX_only (c : Ctx) (rd : XReg) (v : Word) : c.deliverX rd v = { c with
    regs := { c.regs with x := (c.deliverX rd v).regs.x, v := (c.deliverX rd v).regs.v }
    xwait := (c.deliverX rd v).xwait, vwait := (c.deliverX rd v).vwait, fused := (c.deliverX rd v).fused } := by
  unfold Ctx.deliverX Ctx.wx
  split
  · split <;> rfl
  · rfl

theorem deliverV_only (c : Ctx) (vd : VReg) (f : Row → Row) : c.deliverV vd f = { c with
    regs := { c.regs with x := (c.deliverV vd f).regs.x, v := (c.deliverV vd f).regs.v }
    xwait := (c.deliverV vd f).xwait, vwait := (c.deliverV vd f).vwait, fused := (c.deliverV vd f).fused } := by
  unfold Ctx.deliverV Ctx.wv
  split <;> rfl

theorem fusedOnly_doFused (s : State) (k : CtxKey) (o : FusedOp) : FusedOnly s (s.doFused k o) k := by
  unfold State.doFused
  simp only
  split
  · exact fusedOnly_mapCtx s k _ fun c => deliverX_only c _ _
  · exact fusedOnly_mapCtx s k _ fun c => deliverV_only c _ _
  · exact fusedOnly_writeLocal s k _ _ _ _ _
  · split
    · exact fusedOnly_writeLocal s k _ _ _ _ _
    · exact fusedOnly_trans (fusedOnly_writeLocal s k _ _ _ _ _) (fusedOnly_mapCtx _ k _ fun c => deliverV_only c _ _)

theorem fusedOnly_applyFused (s : State) (k : CtxKey) (o : FusedOp) : FusedOnly s (s.applyFused k o) k :=
  fusedOnly_trans (fusedOnly_mapCtx s k _ fun _ => rfl) (fusedOnly_doFused _ k o)

/-- What performing the fused accesses of a context can do. -/
theorem fusedOnly_flushCtx (s : State) (k : CtxKey) : FusedOnly s (s.flushCtx k) k := by
  unfold State.flushCtx
  exact foldl_keeps (fun t : State => FusedOnly s t k) _ (fun t o ht => fusedOnly_trans ht (fusedOnly_applyFused t k o)) _ _
    (fusedOnly_refl s k)

theorem flush_only (s : State) : FusedOnly s s.flush s.iss.key := fusedOnly_flushCtx s s.iss.key

/-- Without fused accesses nothing is performed. -/
theorem flush_of_none (s : State) (h : s.me.fused = []) : s.flush = s := by
  unfold State.flush State.flushCtx
  rw [show (s.ctx s.iss.key).fused = [] from h]; rfl

@[simp] theorem flush_iss (s : State) : s.flush.iss = s.iss := by rw [(flush_only s).1]
@[simp] theorem flush_clk (s : State) : s.flush.clk = s.clk := by rw [(flush_only s).1]
@[simp] theorem flush_dram (s : State) : s.flush.dram = s.dram := by rw [(flush_only s).1]
@[simp] theorem flush_core (s : State) (n : CoreNo) : s.flush.core n = s.core n := by rw [(flush_only s).1]; rfl
@[simp] theorem flush_die (s : State) (d : Nat) : s.flush.die d = s.die d := by rw [(flush_only s).1]; rfl

/-! ## Which clusters are fused -/

theorem writeLocal_fused (s : State) (core row : Nat) (m : Row256) (v : Row) (fill : Bool) :
    (s.writeLocal core row m v fill).spad.fused = s.spad.fused := by
  unfold State.writeLocal
  simp only
  split
  · rfl
  · refine foldl_keeps (fun t : State => t.spad.fused = s.spad.fused) _ (fun t e ht => ?_) _ _ rfl
    split <;> exact ht

theorem doFused_fused (s : State) (k : CtxKey) (o : FusedOp) : (s.doFused k o).spad.fused = s.spad.fused := by
  unfold State.doFused
  simp only
  split
  · rfl
  · rfl
  · exact writeLocal_fused _ _ _ _ _ _
  · split
    · exact writeLocal_fused _ _ _ _ _ _
    · exact writeLocal_fused s _ _ _ _ _

/-- Performing fused accesses fuses no cluster and splits none (R174). -/
theorem flushCtx_fused (s : State) (k : CtxKey) : (s.flushCtx k).spad.fused = s.spad.fused := by
  unfold State.flushCtx
  exact foldl_keeps (fun t : State => t.spad.fused = s.spad.fused) _ (fun t o ht => by
    rw [← ht]; exact doFused_fused (t.mapCtx k fun c => { c with fused := c.fused.drop 1 }) k o) _ _ rfl

@[simp] theorem flush_isFused (s : State) (n : CoreNo) : s.flush.isFused n = s.isFused n := by
  unfold State.isFused State.flush; rw [flushCtx_fused]

@[simp] theorem flush_extent (s : State) (n : CoreNo) : s.flush.extent n = s.extent n := by
  unfold State.extent; rw [flush_isFused]

@[simp] theorem flush_myCore (s : State) : s.flush.myCore = s.myCore := by unfold State.myCore; rw [flush_iss]

/-! ## The memories -/

theorem doFused_safe (s : State) (k : CtxKey) (o : FusedOp) (h : s.safe = true) : (s.doFused k o).safe = true := by
  unfold State.doFused
  simp only
  split
  · exact h
  · exact h
  · exact writeLocal_safe _ _ _ _ _ _ h
  · split
    · exact writeLocal_safe _ _ _ _ _ _ h
    · rw [mapCtx_safe]; exact writeLocal_safe _ _ _ _ _ _ h

theorem applyFused_safe (s : State) (k : CtxKey) (o : FusedOp) (h : s.safe = true) : (s.applyFused k o).safe = true := by
  unfold State.applyFused
  exact doFused_safe _ _ _ h

theorem flushCtx_safe (s : State) (k : CtxKey) (h : s.safe = true) : (s.flushCtx k).safe = true := by
  unfold State.flushCtx
  exact foldl_keeps (fun t : State => t.safe = true) _ (fun t o ht => applyFused_safe t k o ht) _ _ h

/-! ## Meanings that read the scratchpad at issue -/

theorem acquiring_false (s : State) (h : NoAcquire s) : s.acquiring = false := by
  unfold State.acquiring
  refine Bool.eq_false_iff.2 fun hc => ?_
  obtain ⟨m, hm, hv⟩ := List.any_eq_true.1 hc
  rw [Bool.and_eq_true, beq_iff_eq] at hv
  rw [h m hm hv.1] at hv
  exact Bool.false_ne_true hv.2

/-- A meaning that holds its bundle changes nothing. -/
theorem run_of_hold (m : Sem) (s : State) (h : m.hold s = true) : m.run s = .next s := by
  unfold Sem.run; rw [if_pos h]

/-- Where such a meaning meets no fault, wait or stall, its effect is that on the state in which the earlier fused
accesses are performed (R176, R186). -/
theorem onRow_run (m : Sem) (s : State) (hf : m.fault s.flush = none) (hi : m.instead s = none) (ha : m.arrive s = s)
    (hb : m.block s = []) (hq : NoAcquire s) (hs : m.stall s = none) : m.onRow.run s = .next (m.eff s.flush) := by
  have h0 : m.onRow.hold s = false := acquiring_false s hq
  have h1 : m.onRow.fault s = none := hf
  have h2 : m.onRow.instead s = none := hi
  have h3 : m.onRow.arrive s = s := ha
  have h4 : m.onRow.block s = [] := hb
  have h5 : m.onRow.stall s = none := hs
  unfold Sem.run
  rw [h0, if_neg Bool.false_ne_true]
  simp only [h1, h2, h3, h4, h5]
  rfl

end Sys2Proof.Machine
end

