-- ==== Sys2Proof/Laws/Registers.lean ====
section
/-! SUPPORT. Laws of the register operations: what each writes, and that it writes nothing else. -/

namespace Sys2Proof.Machine

/-! ## Equality of register numbers -/

theorem regNo_ne {w : Nat} {a b : BitVec w} (h : a ≠ b) : a.toNat ≠ b.toNat := fun e => h (BitVec.eq_of_toNat_eq e)

/-! ## Scalar registers -/

theorem Ctx.xr_wx (c : Ctx) (r q : XReg) (v : Word) : (c.wx r v).xr q = if q = r ∧ q ≠ 0 then v else c.xr q := by
  unfold Ctx.xr Ctx.wx
  by_cases hr : r = 0
  · rw [if_pos hr, if_neg (c := q = r ∧ q ≠ 0) fun h => h.2 (h.1.trans hr)]
  · rw [if_neg hr]
    by_cases hq : q = 0
    · rw [if_pos hq, if_neg (fun h => h.2 hq), if_pos hq]
    · rw [if_neg hq, if_neg hq, tget_tput]
      by_cases h : q = r
      · rw [if_pos (congrArg BitVec.toNat h), if_pos ⟨h, hq⟩]
      · rw [if_neg (regNo_ne h), if_neg (fun g => h g.1)]

theorem Ctx.wx_frame (c : Ctx) (r : XReg) (v : Word) :
    c.wx r v = { c with regs := { c.regs with x := (c.wx r v).regs.x } } := by
  unfold Ctx.wx; split <;> rfl

/-- Writing x[r] of the issuing context. -/
theorem writesX_wx (s : State) (r : XReg) (v : Word) : WritesX s (s.wx r v) r v := by
  refine ⟨onlyCtx_mapMe s _, ?_, fun q => ?_⟩
  · rw [State.wx, State.me_mapMe]; exact Ctx.wx_frame _ _ _
  · rw [State.wx, State.me_mapMe]; exact Ctx.xr_wx _ _ _ _

/-- An instruction that only writes one scalar register completes. -/
theorem toX_of (i : Instr) (s : State) (r : XReg) (f : State → Word) (v : Word) (h : exec i s = (aluSem r f).run s)
    (hv : f s = v) : ToX i s r v :=
  ⟨s.wx r v, by rw [h, ← hv]; rfl, writesX_wx s r v⟩

/-! ## Predicates -/

theorem Ctx.pr_put (c : Ctx) (r q : XReg) (v : Bool) :
    (if r = 0 then c else { c with regs := { c.regs with p := tput false r.toNat v c.regs.p } }).pr q =
      if q = 0 then true else if q = r then v else c.pr q := by
  unfold Ctx.pr
  by_cases hr : r = 0
  · rw [if_pos hr]
    by_cases hq : q = 0
    · rw [if_pos hq, if_pos hq]
    · rw [if_neg hq, if_neg hq, if_neg (fun h => hq (h.trans hr))]
  · rw [if_neg hr]
    by_cases hq : q = 0
    · rw [if_pos hq, if_pos hq]
    · rw [if_neg hq, if_neg hq, if_neg hq, tget_tput]
      by_cases h : q = r
      · rw [if_pos (congrArg BitVec.toNat h), if_pos h]
      · rw [if_neg (regNo_ne h), if_neg h]

/-- Writing p[d] and then its complement to p[e]. -/
theorem writesPP_wp (s : State) (d e : XReg) (v : Bool) : WritesPP s ((s.wp d v).wp e (!v)) d e v := by
  refine ⟨onlyCtx_trans (onlyCtx_mapMe s _) (onlyCtx_mapMe _ _), ?_, fun q => ?_⟩
  · simp only [State.wp, State.me_mapMe]
    split <;> split <;> rfl
  · simp only [State.wp, State.me_mapMe]
    rw [Ctx.pr_put, Ctx.pr_put]
    by_cases hq : q = 0
    · rw [if_pos hq, if_pos hq]
    · rw [if_neg hq, if_neg hq, if_neg hq]

/-! ## Masks -/

theorem Ctx.mr_put (c : Ctx) (r q : MReg) (v : Word) :
    (if r = 0 then c else { c with regs := { c.regs with m := tput 0 r.toNat v c.regs.m } }).mr q =
      if q = 0 then BitVec.allOnes 64 else if q = r then v else c.mr q := by
  unfold Ctx.mr
  by_cases hr : r = 0
  · rw [if_pos hr]
    by_cases hq : q = 0
    · rw [if_pos hq, if_pos hq]
    · rw [if_neg hq, if_neg hq, if_neg (fun h => hq (h.trans hr))]
  · rw [if_neg hr]
    by_cases hq : q = 0
    · rw [if_pos hq, if_pos hq]
    · rw [if_neg hq, if_neg hq, if_neg hq, tget_tput]
      by_cases h : q = r
      · rw [if_pos (congrArg BitVec.toNat h), if_pos h]
      · rw [if_neg (regNo_ne h), if_neg h]

/-! ## Vector registers -/

theorem Ctx.vr_wv (c : Ctx) (r q : VReg) (v : Row) : (c.wv r v).vr q = if q = r then v else c.vr q := by
  unfold Ctx.vr Ctx.wv
  simp only [tget_tput]
  by_cases h : q = r
  · simp [h]
  · simp [h, regNo_ne h]

theorem Ctx.wv_frame (c : Ctx) (r : VReg) (v : Row) :
    c.wv r v = { c with regs := { c.regs with v := (c.wv r v).regs.v } } := rfl

/-! ## Consuming stream heads -/

theorem consume_cons (s : State) (a : VSrc) (l : List VSrc) : s.consume (a :: l) = (s.consume [a]).consume l := rfl

/-- Consuming heads moves streams of the issuing context and nothing else. -/
theorem consume_frame (l : List VSrc) (s : State) :
    OnlyCtx s (s.consume l) s.iss.key ∧ (s.consume l).me = { s.me with streams := (s.consume l).me.streams } := by
  induction l generalizing s with
  | nil => exact ⟨onlyCtx_refl s _, rfl⟩
  | cons a r ih =>
    have one : OnlyCtx s (s.consume [a]) s.iss.key ∧ (s.consume [a]).me = { s.me with streams := (s.consume [a]).me.streams } := by
      cases a with
      | v q => exact ⟨onlyCtx_refl s _, rfl⟩
      | head sn p =>
        cases p with
        | true => exact ⟨onlyCtx_refl s _, rfl⟩
        | false =>
          have e : s.consume [.head sn false] = s.mapMe fun c => c.setStream sn ((c.stream sn).consume 1) := rfl
          rw [e, State.me_mapMe]
          exact ⟨onlyCtx_mapMe s _, rfl⟩
    have hk : (s.consume [a]).iss = s.iss := by rw [one.1.1]
    have h := ih (s.consume [a])
    rw [hk] at h
    rw [consume_cons]
    refine ⟨onlyCtx_trans one.1 h.1, ?_⟩
    rw [h.2, one.2]

/-- The performing of fused accesses leaves the streams as they are. -/
theorem flush_stream (s : State) (sn : SReg) : s.flush.me.stream sn = s.me.stream sn := by
  unfold Ctx.stream State.me
  rw [flush_iss, (flush_only s).2.2]

/-- Where every head is ready, reading the sources blocks on nothing. -/
theorem heads_block (s : State) (l : List VSrc) (h : HeadsReady s l) : s.srcBlock l = [] := by
  unfold State.srcBlock
  rw [List.filterMap_eq_nil_iff]
  intro sn hm
  obtain ⟨_, _, h3, _⟩ := h sn hm
  rw [if_neg (by omega)]

/-- Where every head is ready, reading the sources meets no fault. -/
theorem heads_fault (s : State) (l : List VSrc) (h : HeadsReady s l) :
    (s.after l).srcFault l = none ∧ (s.after l).srcBad l = none := by
  unfold State.after
  by_cases hl : (headsOf l).isEmpty = true
  · rw [if_pos hl]
    rw [List.isEmpty_iff] at hl
    unfold State.srcFault State.srcBad
    rw [hl]
    exact ⟨rfl, rfl⟩
  · rw [if_neg hl]
    refine ⟨?_, ?_⟩
    · unfold State.srcFault
      rw [if_neg]
      intro hc
      obtain ⟨sn, hm, hv⟩ := List.any_eq_true.1 hc
      obtain ⟨h1, h2, h3, _⟩ := h sn hm
      have : (s.me.stream sn).avail ≠ 0 := by omega
      simp [flush_stream, h1, h2, this] at hv
    · unfold State.srcBad
      rw [if_neg]
      intro hc
      obtain ⟨sn, hm, hv⟩ := List.any_eq_true.1 hc
      obtain ⟨_, _, _, h4, _⟩ := h sn hm
      simp [flush_stream, h4] at hv

/-- A vector instruction whose heads are ready takes its effect. -/
theorem vecSem_run (l : List VSrc) (eff : State → State) (s : State) (h : HeadsReady s l) :
    (vecSem l eff).run s = .next (eff ((s.after l).consume l)) := by
  obtain ⟨h1, h2⟩ := heads_fault s l h
  have h3 := heads_block s l h
  unfold State.after at *
  unfold vecSem Sem.onHeads
  by_cases hl : (headsOf l).isEmpty = true
  · rw [if_pos hl] at h1 h2 ⊢
    rw [if_pos hl]
    unfold Sem.run
    simp [h1, h2, h3]
  · rw [if_neg hl] at h1 h2 ⊢
    rw [if_neg hl]
    refine onRow_run _ s ?_ rfl rfl h3 ?_ rfl
    · show (s.flush.srcFault l).or (s.flush.srcBad l) = none
      rw [h1, h2]; rfl
    · rw [List.isEmpty_iff] at hl
      obtain ⟨sn, hm⟩ := List.exists_mem_of_ne_nil _ hl
      exact (h sn hm).2.2.2.2

end Sys2Proof.Machine
end

