-- ==== Sys2Proof/Laws/Units.lean ====
section
/-! SUPPORT. What the shared operations of Bangle, Locket, the launch queues, the barriers, the fills and the migration windows
can do: which fields of the state they write (R99, R208, R222, R248, R269, R273, R289, R304). -/

namespace Sys2Proof.Machine

/-! ## Messages of a ring (R289, R298, R304) -/

/-- A message sent round a ring joins the messages that wait for the links, and nothing else changes. -/
theorem State.sendRing_frame (s : State) (l : List (BitVec 12 × Nat)) (m : LinkMsg) :
    s.sendRing l m = { s with out := (s.sendRing l m).out } := by
  unfold State.sendRing
  induction l generalizing s with
  | nil => rfl
  | cons e l ih =>
    simp only [List.foldl_cons]
    split
    · rw [ih]
    · exact ih s

/-- A collective that ends in error writes the notes of its ring and sends messages. -/
theorem State.ringError_frame (s : State) (r : BitVec 2) (seq : BitVec 32) (code : Nat) :
    s.ringError r seq code = { s with rings := (s.ringError r seq code).rings, out := (s.ringError r seq code).out } := by
  unfold State.ringError
  dsimp only
  split
  · rfl
  · split
    · rfl
    · rw [State.sendRing_frame]; rfl

/-- A message of a ring that is not sent writes no more than that. -/
theorem State.unsent_frame (s : State) (m : LinkMsg) :
    s.unsent m = { s with rings := (s.unsent m).rings, out := (s.unsent m).out } := by
  unfold State.unsent
  split
  · exact State.ringError_frame ..
  · exact State.ringError_frame ..
  · rfl

/-- Nor does what a member tells the others. -/
theorem State.tellRing_frame (s : State) (r : BitVec 2) (m : LinkMsg) :
    s.tellRing r m = { s with rings := (s.tellRing r m).rings, out := (s.tellRing r m).out } := by
  unfold State.tellRing State.sendNext
  dsimp only
  split
  · rfl
  · split
    · rw [State.sendRing_frame]
    · exact State.unsent_frame ..

/-- The notes that a lost Bangle port leaves write no more than that: the slots of the collectives stand until each ends. -/
theorem State.cutRings_frame (s : State) (p : Nat) :
    s.cutRings p = { s with rings := (s.cutRings p).rings, out := (s.cutRings p).out } := by
  unfold State.cutRings
  generalize List.range 4 = l
  induction l generalizing s with
  | nil => rfl
  | cons r l ih =>
    simp only [List.foldl_cons]
    split
    · rw [ih, State.ringError_frame]
    · exact ih s

/-! ## Events that set EVT, and fills (R99, R222) -/

/-- A move that sets EVT of a context takes place exactly where the context has not been evaluated on this clk. -/
theorem State.signal_next (s t u : State) (k : CtxKey) : s.signal k t = .next u ↔ s.evaluated k = false ∧ u = t := by
  unfold State.signal
  cases s.evaluated k
  · exact ⟨fun h => ⟨rfl, by injection h with h; exact h.symm⟩, fun h => by rw [h.2]; rfl⟩
  · exact ⟨fun h => (by injection h), fun h => absurd h.1 (by decide)⟩

/-- A write of the own context to a block changes the data of a fill, and nothing else of its slot. -/
theorem ProbeSlot.keepOwn_frame (x : ProbeSlot) (b : Nat) (f : Row → Row) :
    x.keepOwn b f = { x with fill := (x.keepOwn b f).fill } := by
  unfold ProbeSlot.keepOwn
  split
  · split <;> rfl
  · rfl

/-! ## Stores of Locket (R248) -/

/-- The stores that come to be performed are marked, and nothing else changes. -/
theorem State.startStores_frame (s : State) : s.startStores = { s with stashRx := s.startStores.stashRx } := by
  unfold State.startStores
  generalize List.range s.stashRx.length = l
  induction l generalizing s with
  | nil => rfl
  | cons i l ih =>
    simp only [List.foldl_cons]
    split
    · split
      · rw [ih]
      · exact ih s
    · exact ih s

/-! ## Launch queues (R273) -/

/-- The comparison of a queue's pointers writes the queue and the events. -/
theorem State.checkOverrun_frame (s : State) (q : Nat) :
    s.checkOverrun q = { s with queues := (s.checkOverrun q).queues, events := (s.checkOverrun q).events } := by
  unfold State.checkOverrun
  dsimp only
  split
  · unfold State.event State.setQueue; dsimp only; split <;> rfl
  · rfl

/-! ## Arrivals at barriers (R269) -/

/-- The arrival that is set is the one that the mode reads. -/
@[simp] theorem Ctx.setArrival_arrival (c : Ctx) (a : Option Arrival) : (c.setArrival a).arrival = a := by
  cases h : c.sys <;> simp [Ctx.setArrival, Ctx.arrival, h]
/-- The registers stand. -/
@[simp] theorem Ctx.setArrival_regs (c : Ctx) (a : Option Arrival) : (c.setArrival a).regs = c.regs := by
  unfold Ctx.setArrival; split <;> rfl
/-- The mode stands. -/
@[simp] theorem Ctx.setArrival_sys (c : Ctx) (a : Option Arrival) : (c.setArrival a).sys = c.sys := by
  unfold Ctx.setArrival; split <;> rfl
/-- The PC stands. -/
@[simp] theorem Ctx.setArrival_pc (c : Ctx) (a : Option Arrival) : (c.setArrival a).pc = c.pc := by
  unfold Ctx.setArrival; split <;> rfl
/-- An episode that closes changes no more of a context than its arrivals. -/
theorem Ctx.pass_frame (c : Ctx) (g : BitVec 8) :
    c.pass g = { c with arrived := (c.pass g).arrived, arrivedSys := (c.pass g).arrivedSys } := rfl
/-- A context that has arrived passes when the episode closes. -/
theorem Ctx.pass_passed (c : Ctx) (g : BitVec 8) (pcb : BitVec 55) (h : c.isArrived g pcb = true) :
    (c.pass g).passed g pcb = true := by
  unfold Ctx.isArrived Ctx.passed Ctx.pass Ctx.arrival at *
  dsimp only at *
  cases hs : c.sys <;> simp only [hs, if_true, if_false, Bool.false_eq_true] at h ⊢ <;>
    split at h <;> simp_all

/-! ## Held writes (R208) -/

/-- A write held twice is held once. -/
theorem State.holdWrite_twice (s : State) (src : WriteSrc) (p : Nat) :
    (s.holdWrite src p).holdWrite src p = s.holdWrite src p := by
  unfold State.holdWrite
  split
  · rfl
  · exact if_pos (by simp)

/-- Without held writes there is nothing to replay. -/
theorem State.settlePage_none (s : State) (p : Nat) (h : s.migHeld = []) : s.settlePage p = s := by
  simp [State.settlePage, h, State.settleHeld]

/-- Nor for a list of pages. -/
theorem State.settlePages_none (s : State) (l : List Nat) (h : s.migHeld = []) :
    l.foldl (fun s p => s.settlePage p) s = s := by
  induction l with
  | nil => rfl
  | cons p l ih => simp only [List.foldl_cons, State.settlePage_none s p h, ih]

/-- A write whose pages are in no window goes on, where no write is held. -/
theorem State.migGate_clear (s : State) (src : WriteSrc) (u : Nat) (pages : List Nat)
    (hp : ∀ p ∈ pages, s.pageMig u p = false) (h : s.migHeld = []) : s.migGate src u pages = some (false, s) := by
  have hf : pages.filter (s.pageMig u) = [] := List.filter_eq_nil_iff.mpr fun p m => by simp [hp p m]
  have ha : pages.all (s.firstHeld src) = true := List.all_eq_true.mpr fun p _ => by simp [State.firstHeld, h]
  have hl : s.leaveHeld src pages = s := by
    have e : s = { s with migHeld := [] } := by rw [← h]
    unfold State.leaveHeld
    rw [h, List.filter_nil, ← e]
  simp only [State.migGate, State.migPass, hf, List.isEmpty_nil, Bool.not_true, Bool.false_eq_true, if_false,
    State.settlePages_none s pages h, ha, if_true, Option.map_some, hl]

/-- A write of which a page is in a window is held for each such page. -/
theorem State.migGate_shut (s : State) (src : WriteSrc) (u : Nat) (pages : List Nat) (p : Nat) (hm : p ∈ pages)
    (hp : s.pageMig u p = true) :
    s.migGate src u pages = some (true, s.holdIn src (pages.filter (s.pageMig u))) := by
  have hf : (pages.filter (s.pageMig u)).isEmpty = false := by
    cases h : pages.filter (s.pageMig u) with
    | nil => exact absurd hp (by simpa using List.filter_eq_nil_iff.mp h p hm)
    | cons _ _ => rfl
  simp [State.migGate, State.migPass, hf]

end Sys2Proof.Machine
end

