-- ==== Sys2Proof/Tests/Slice0.lean ====
section
/-! SUPPORT. Checks of the model's own: the words of the spec's encodings, terms that WellFormed refuses, single steps
whose results the spec's text gives, and for each statement with hypotheses a state and operands that meet them. -/

namespace Sys2Proof.Tests

open Sys2Proof Sys2Proof.Machine

set_option Elab.async false

/-- The state after reset but for context 0 of core 0, which is evaluating a bundle at its PC. -/
def at0 (c : Ctx) : State :=
  { State.reset with
    ctxs := [(0, c)]
    iss := { pcb := c.pc, pcn := c.pc + 1, regs := c.regs, stat := c.stat, tr := c.tr, evt := c.evt } }

/-- The same with core 0. -/
def atCore (c : Ctx) (n : Core) : State := { at0 c with cores := [(0, n)] }

/-- A context with scalar registers. -/
def scalars (l : Tab Word) : Ctx := { regs := { x := l } }

/-- x[r] of context 0 of core 0 in an outcome. -/
def xOf (o : Host.Outcome State Fault Refusal) (r : XReg) : Option Word :=
  match o with
  | .next t => some ((t.ctx 0).xr r)
  | _ => none

/-- Something of the next state of an outcome. -/
def inNext {α : Type} (o : Host.Outcome State Fault Refusal) (f : State → α) : Option α :=
  match o with
  | .next t => some (f t)
  | _ => none

/-- Whether a computation gives a value, or an error. -/
def okIs {ε α : Type} [DecidableEq α] (e : Except ε α) (v : α) : Bool :=
  match e with
  | .ok x => decide (x = v)
  | .error _ => false
def errIs {ε α : Type} [DecidableEq ε] (e : Except ε α) (v : ε) : Bool :=
  match e with
  | .ok _ => false
  | .error x => decide (x = v)
theorem ok_of_okIs {ε α : Type} [DecidableEq α] {e : Except ε α} {v : α} (h : okIs e v = true) : e = .ok v := by
  cases e with
  | ok x => simpa [okIs] using h
  | error _ => simp [okIs] at h
theorem error_of_errIs {ε α : Type} [DecidableEq ε] {e : Except ε α} {v : ε} (h : errIs e v = true) : e = .error v := by
  cases e with
  | error x => simpa [errIs] using h
  | ok _ => simp [errIs] at h
/-- Whether a computation gives a value at all. -/
def isOk {ε α : Type} (e : Except ε α) : Bool :=
  match e with
  | .ok _ => true
  | .error _ => false
theorem ok_of_isOk {ε α : Type} {e : Except ε α} (h : isOk e = true) : ∃ v, e = .ok v := by
  cases e with
  | ok v => exact ⟨v, rfl⟩
  | error _ => simp [isOk] at h

/-! ## Terms that WellFormed refuses, one for each of its checks -/

/-- The codes and fields that the encodings do not admit. -/
theorem ill_formed : ([
    .plog .mov 1 2 3 4, .srget 1 0x008, .srset 0x025 1, .vfadd .e4m3 1 (.v 2) (.v 3) 0, .vfma .i32 1 (.v 2) (.v 3) (.v 4) 0,
    .vfsqrt .e5m2 1 (.v 2) 0, .vadd .f32 1 (.v 2) (.v 3) 0, .vabs .bf16 1 (.v 2) 0, .vcmp .eq .i64 1 2 (.v 3) (.v 4) 1,
    .vcmp .eq .f32 1 2 (.v 3) (.v 4) 0, .vfcmp .eq .f16 1 2 (.v 3) (.v 4) 2, .vfcmp .eq .i8 1 2 (.v 3) (.v 4) 0, .mlog .not 1 2 3 4,
    .vsel .e2m1 1 (.v 2) (.v 3) 0, .vcvt .f32 .f32 .rne 1 (.v 2) 0 0, .vcvt .e2m1 .e3m2 .rne 1 (.v 2) 0 0,
    .vcvt .i8 .i32 .rz 1 (.v 2) 0 0, .vcvt .e2m1 .f32 .rne 1 (.v 2) 0 8, .vcvt .f32 .i32 .rne 1 (.v 2) 0 1,
    .vcvtu .bf16 .f32 .rne 1 (.v 2) 0 0 ] : List Instr).all (fun i => !i.wf) = true := by decide
theorem ill_formed_2 : ([
    .vcvtq .bf16 .f32 .rne 1 (.v 2) (.v 3) 15 0 0, .vcvtq .e2m1 .i32 .rne 1 (.v 2) (.v 3) 15 0 0,
    .vcvtq .e2m1 .f32 .rne 1 (.v 2) (.v 3) 15 0 8, .vbcast .f32 1 (.v 2) 0 64, .vins .i64 1 2 32, .vext .e2m3 1 (.v 2) 0,
    .vbcastScalar .lq2 1 2 0, .vperm .e3m2 1 (.v 2) (.v 3) 0, .vperm2 .e3m2 1 (.v 2) (.v 3) (.v 4) 0, .vzip true .e2m1 1 (.v 2) (.v 3) 0,
    .vunzip true .e2m1 1 (.v 2) (.v 3) 0, .vcomp .e2m1 1 (.v 2) 0, .vrsum .i32 1 (.v 2) 0, .vrmax .e4m3 1 (.v 2) 0,
    .vradd .f32 1 (.v 2) 0, .vsort 1 2, .vsort 2 3, .vmrg false 1 2 4, .vmrg true 2 3 4, .vmrg true 2 4 5 ] : List Instr).all
      (fun i => !i.wf) = true := by decide
theorem ill_formed_3 : ([
    .vadamw .f16 .rne 0 1 false false, .vadamw .f32 .rz 0 1 false false, .vadamw .f32 .rne 10 1 false false,
    .vadamw .f32 .rne 0 1 true false, .vsgdm .f32 .rne 12 1 false false, .vsgdm .bf16 .ru 0 1 false false, .vrand .i8 1 0,
    .mloadw 0 0 0 false 1, .mdrain 0 0 0 0 .rne false false 1, .mstat 0 1 3 true, .strow (.head 1 true) 1 0 0,
    .strowr (.head 1 true) 1 2 0 false, .amo .fadd true 1 2 3 0 0 false, .amo .add false 1 2 3 4 0 false,
    .amo .add false 1 2 3 0 0 true, .amor .fadd true 1 2 3 4 0 0 false false, .amor .swap false 1 2 3 4 5 0 false false,
    .amor .swap false 1 2 3 4 0 0 true false, .sstat 1 0 3, .amog .fadd true 1 2 0, .stashc 0 1 0 false false true,
    .tarm 1 2 0 true 3, .rstat 1 4, .rstat 1 0x300, .channelFailure 0 384, .claspConfigWrite 0 24 0 ] : List Instr).all
      (fun i => !i.wf) = true := by decide

/-! ## Words written out from the encodings of the spec -/

/-- R81, R84, R89: `add x4, x4, x7`, `addi x5, x5, 256`, `loop x6, -1`; spec/04's worked example. -/
theorem decode_scalar : decodeSlot .B 0x00011041C0000000 = .ok ⟨false, 0, .add 4 4 7⟩ ∧
    decodeSlot .A 0x0040145000000100 = .ok ⟨false, 0, .addi 5 5 256⟩ ∧
    decodeSlot .A 0x00A41800FFFFFFFF = .ok ⟨false, 0, .loop 6 (BitVec.ofInt 32 (-1))⟩ ∧
    decodeSlot .B 0x00C01C5000000000 = .ok ⟨false, 0, .lds 7 5 0⟩ := ⟨rfl, rfl, rfl, rfl⟩
/-- R118: `vrsum.f32 v4, v1`; spec/05's example. -/
theorem decode_vector : decodeSlot .V0 0x01C0101000000000 = .ok ⟨false, 0, .vrsum .f32 4 (.v 1) 0⟩ := rfl
/-- R137, R162: stream 0, tile 1, set 2 and d1; d2 and d1 of MSPLG on stream 2. -/
theorem decode_matrix : decodeSlot .M 0x0003122000000000 = .ok ⟨false, 0, .mmul 0 1 2 1 false false 0⟩ ∧
    decodeSlot .M 0x0043842000000000 = .ok ⟨false, 0, .msplg 2 2 1⟩ := ⟨rfl, rfl⟩
/-- R178, R227: a row load, and `amog.add.i64 [x4 + 8], x7`. -/
theorem decode_memory : decodeSlot .X 0x0001045000000100 = .ok ⟨false, 0, .ldrow 1 5 256⟩ ∧
    decodeSlot .X 0x00451C4800000008 = .ok ⟨false, 0, .amog .add true 7 4 8⟩ := ⟨rfl, rfl⟩
/-- R234, R246: a chain, and STASHC under p1. -/
theorem decode_copy : decodeSlot .X 0x0060284000000003 = .ok ⟨false, 0, .xchain 10 4 3⟩ ∧
    decodeSlot .X 0x0268240000003000 = .ok ⟨false, 1, .stashc 9 0 0x3000 false false false⟩ := ⟨rfl, rfl⟩
/-- R256: TDONE, WAITVIS, `gbar 5` and `verget x12, 1, x5`; spec/11's words. -/
theorem decode_tasks : decodeSlot .X 0x0082000000000000 = .ok ⟨false, 0, .tdone⟩ ∧
    decodeSlot .X 0x0086000000000000 = .ok ⟨false, 0, .waitvis⟩ ∧ decodeSlot .X 0x0087000000000005 = .ok ⟨false, 0, .gbar 5⟩ ∧
    decodeSlot .X 0x008C305000000001 = .ok ⟨false, 0, .verget 12 5 1⟩ := ⟨rfl, rfl, rfl, rfl⟩
/-- R290, R316: a CHSEND of a scratchpad payload, and SQWAIT.t. -/
theorem decode_links : decodeSlot .X 0x00C01C8240000105 = .ok ⟨false, 0, .chsend true 7 8 9 5⟩ ∧
    decodeSlot .X 0x00E22C0100000000 = .ok ⟨false, 0, .sqwaitT 11 0⟩ := ⟨rfl, rfl⟩
/-- R344: `trap 5`, `eret.disc`, `ctxsave [x4 + 0]`, `dload [x6 + 0]`, `tlbinv x4`, `stop x9, x4`; spec/14's words. -/
theorem decode_system : decodeSlot .X 0x00F0000000000005 = .ok ⟨false, 0, .trap 5⟩ ∧
    decodeSlot .X 0x00F1000100000000 = .ok ⟨false, 0, .eretDisc⟩ ∧
    decodeSlot .X 0x00F2004000000000 = .ok ⟨false, 0, .ctxsave 4 0 false false⟩ ∧
    decodeSlot .X 0x00F4006000000000 = .ok ⟨false, 0, .dload 6 0⟩ ∧ decodeSlot .X 0x00F5004000000000 = .ok ⟨false, 0, .tlbinv 4⟩ ∧
    decodeSlot .X 0x00F7244000000000 = .ok ⟨false, 0, .stop 9 4⟩ := ⟨rfl, rfl, rfl, rfl, rfl, rfl⟩
/-- R39: a reserved opcode and a nonzero reserved field. -/
theorem decode_refuses : decodeSlot .A 0x01FF000000000000 = .error .reservedOpcode ∧
    decodeSlot .A 0x0001000000000001 = .error .reservedField ∧ decodeSlot .A 0x00C01C5000000000 = .error .reservedOpcode :=
  ⟨rfl, rfl, rfl⟩

/-! ## Scalar instructions -/

/-- R82: division by zero gives all ones, and the least number over -1 itself. -/
theorem test_div : xOf (exec (.div 1 2 3) (at0 (scalars [(2, 7)]))) 1 = some (BitVec.allOnes 64) ∧
    xOf (exec (.div 1 2 3) (at0 (scalars [(2, BitVec.intMin 64), (3, BitVec.allOnes 64)]))) 1 = some (BitVec.intMin 64) := by
  decide +kernel
/-- R82: the quotient of -7 and 2 is -3, the remainder -1. -/
theorem test_rem : xOf (exec (.rem 1 2 3) (at0 (scalars [(2, -7), (3, 2)]))) 1 = some (-1) ∧
    xOf (exec (.div 1 2 3) (at0 (scalars [(2, -7), (3, 2)]))) 1 = some (-3) := by decide +kernel
/-- R81: the upper half of a signed product. -/
theorem test_mulh : xOf (exec (.mulh 1 2 3) (at0 (scalars [(2, -1), (3, 1)]))) 1 = some (-1) ∧
    xOf (exec (.mulhu 1 2 3) (at0 (scalars [(2, -1), (3, 2)]))) 1 = some 1 := by decide +kernel
/-- R81: the shift count is taken modulo 64, and SAR keeps the sign. -/
theorem test_sar : xOf (exec (.sar 1 2 3) (at0 (scalars [(2, -8), (3, 65)]))) 1 = some (-4) ∧
    xOf (exec (.shl 1 2 3) (at0 (scalars [(2, 1), (3, 64)]))) 1 = some 1 := by decide +kernel
/-- R36: a write of x0 is discarded. -/
theorem test_x0 : xOf (exec (.addi 0 2 5) (at0 (scalars [(2, 7)]))) 0 = some 0 := by decide +kernel
/-- R83: CLZ of zero is 64; INS places a field over the destination's bits. -/
theorem test_ins : xOf (exec (.clz 1 2) (at0 (scalars []))) 1 = some 64 ∧
    xOf (exec (.ins 1 2 8 7) (at0 (scalars [(1, 0x12345678), (2, 0xFFAB)]))) 1 = some 0x1234AB78 := by decide +kernel
/-- R84: LIH keeps the lower half. -/
theorem test_lih : xOf (exec (.lih 1 2 0x89ABCDEF) (at0 (scalars [(2, 0x55550123)]))) 1 = some 0x89ABCDEF55550123 := by
  decide +kernel
/-- R85: unsigned and signed comparisons of -1 and 0. -/
theorem test_cmp : (inNext (exec (.cmp .ltu 1 2 3 0) (at0 (scalars [(3, -1)]))) fun t => ((t.ctx 0).pr 1, (t.ctx 0).pr 2)) =
      some (false, true) ∧
    (inNext (exec (.cmp .lt 1 0 3 0) (at0 (scalars [(3, -1)]))) fun t => ((t.ctx 0).pr 1, (t.ctx 0).pr 0)) =
      some (true, true) := by decide +kernel
/-- R86: the complement goes to pe. -/
theorem test_plog : (inNext (exec (.plog .orn 1 2 0 0) (at0 {})) fun t => ((t.ctx 0).pr 1, (t.ctx 0).pr 2)) =
    some (true, false) := by decide +kernel
/-- R89: LOOP at 2 counts down and branches back, and at 1 writes 0 and falls through. -/
theorem test_loop : (inNext (exec (.loop 5 (-3)) (at0 { scalars [(5, 2)] with pc := 10 })) fun t => ((t.ctx 0).pc, (t.ctx 0).xr 5)) =
      some (7, 1) ∧
    (inNext (exec (.loop 5 (-3)) (at0 { scalars [(5, 1)] with pc := 10 })) fun t => ((t.ctx 0).pc, (t.ctx 0).xr 5)) =
      some (10, 0) := by decide +kernel
/-- R88: CALL writes the PC of the next bundle. -/
theorem test_call : (inNext (exec (.call 1 4) (at0 { pc := 10 })) fun t => ((t.ctx 0).pc, (t.ctx 0).xr 1)) = some (14, 11) := by
  decide +kernel
/-- The counts at which LOOP changes its course (R89). -/
theorem witness_ControlTransfers : 1 < ((at0 (scalars [(5, 2)])).rx 5).toNat ∧ ((at0 (scalars [(5, 1)])).rx 5).toNat ≤ 1 ∧
    ((at0 (scalars [])).rx 5).toNat ≤ 1 := by decide +kernel
/-- The last byte of the extent, and the first past it. -/
theorem witness_ScalarAccess :
    (let s := at0 (scalars [(3, 0x5FFF0)])
     let ea := s.rx 3 + (15 : BitVec 32).signExtend 64
     ea.toNat < s.extent s.myCore ∧ tget false (s.spadAddr s.myCore (ea.toNat / 8 * 8) / 16) s.spad.err = false ∧
       ∀ m ∈ (s.core s.myCore).msgs, m.key = s.iss.key → m.acq = false) ∧
    (let s := at0 (scalars [(3, 0x5FFF0)])
     s.extent s.myCore ≤ (s.rx 3 + (16 : BitVec 32).signExtend 64).toNat) := by decide +kernel
/-- R3, R92: STS stores the lowest byte first, in the aligned field. -/
theorem test_sts : (inNext (exec (.sts 2 3 5) (at0 (scalars [(2, 0x1122334455667788), (3, 0x100)]))) fun t => t.spad.bytes) =
    some [(0x100, 0x88), (0x101, 0x77), (0x102, 0x66), (0x103, 0x55), (0x104, 0x44), (0x105, 0x33), (0x106, 0x22),
      (0x107, 0x11)] := by decide +kernel
/-- R339, R173: a scalar access past the extent traps to its vector with cause 9 and the address. -/
theorem test_lds_range : (inNext (exec (.lds 1 3 0) (at0 (scalars [(3, 0x60000)]))) fun t =>
    ((t.ctx 0).tr.cause, (t.ctx 0).tr.eaddr, (t.ctx 0).pc, (t.ctx 0).sys)) = some (9, 0x60000, 144, true) := by decide +kernel
/-- The registers and modes of the clauses about SRSET, at the edges of the trap registers (R94). -/
theorem witness_SystemRegisters : (at0 {}).me.sys = true ∧
    ((at0 { sys := false }).me.sys = false ∧ (0x01F : BitVec 12).toNat < 0x020 ∧ 0x024 < (0x025 : BitVec 12).toNat ∧
      0x020 ≤ (0x020 : BitVec 12).toNat ∧ (0x024 : BitVec 12).toNat ≤ 0x024) := by decide +kernel
/-- R68: SRSET of SR_FPSTAT keeps six bits; R94: outside system mode a trap register traps with cause 8. -/
theorem test_srset : (inNext (exec (.srset 0x010 3) (at0 (scalars [(3, -1)]))) fun t => (t.ctx 0).stat.fpstat) = some 0x3F ∧
    (inNext (exec (.srset 0x020 3) (at0 { sys := false })) fun t => ((t.ctx 0).tr.cause, (t.ctx 0).sys)) = some (8, true) := by
  decide +kernel
/-- A latch that is set; a timeout that has just passed; a ready cluster with one message short of the limit. -/
theorem witness_EventsAndNop : (at0 { evt := true }).me.evt = true ∧
    (let s : State := { at0 { wfeSys := some (0, 3) } with clk := 8 }
     s.me.evt = false ∧ s.me.wfeRec = some (s.iss.pcb, 3) ∧ (5 : BitVec 32) ≠ 0 ∧ 3 + (5 : BitVec 32).toNat ≤ s.clk) ∧
    (let s : State := { atCore {} { msgs := List.replicate 63 ⟨0, 0, 0, .sev 1, false, none⟩ } with clReady := [(255, true)] }
     let s := { s with iss := { s.iss with regs := { x := [(4, 0xFFF)] } } }
     (1 : BitVec 4) ≠ 0 ∧ tget false ((s.rx 4).toNat % 4096 / 16) s.clReady = true ∧
       (s.core s.myCore).msgs.length < 64 ∧ NoAcquire s) ∧
    ((at0 {}).me.evt = false ∧ (at0 {}).me.wfeRec = none ∧ (at0 {}).me.stop ≠ .running) ∧
    (let s : State := { at0 { wfeSys := some (0, 3) } with clk := 7 }
     s.me.evt = false ∧ s.me.wfeRec = some (s.iss.pcb, 3) ∧ s.clk < 3 + (5 : BitVec 32).toNat ∧ s.me.stop ≠ .running) := by
  unfold NoAcquire; decide +kernel
/-- R99: WFE consumes the latch. -/
theorem test_wfe : (inNext (exec (.wfe 1 0) (at0 { evt := true })) fun t => ((t.ctx 0).xr 1, (t.ctx 0).evt)) = some (1, false) ∧
    (inNext (exec (.sev 2) (at0 {})) fun t => ((t.ctx 1).evt, (t.ctx 0).evt)) = some (true, false) := by decide +kernel

/-! ## Vector instructions -/

/-- A context whose stream s0 is bound to a buffer of two filled rows at row 0. -/
def headCtx : Ctx :=
  { streams := [(0, { bound := true, ns := 2, n0 := 2, n1 := 1, n2 := 1, n3 := 1, len := 256, filled := [0, 1] })] }

/-- The head of a bound stream with filled slots is ready, beside vector registers. -/
theorem witness_heads : HeadsReady (at0 headCtx) [.head 0 false, .v 1] ∧ HeadsReady (at0 headCtx) [.head 0 true] ∧
    HeadsReady (at0 headCtx) [.head 0 false, .v 1, .head 0 true] := by unfold HeadsReady NoAcquire; decide +kernel
theorem witness_VectorFloatResults : ETy.isVF .f32 = true ∧ ETy.isVF .bf16 = true ∧ ETy.isVF .f16 = true := by decide
theorem witness_FormatCodesAreExact : ETy.isFloat .e2m1 = true ∧ 15 < 2 ^ ETy.width .e2m1 ∧
    ∃ neg m e, (ETy.fmt .e2m1).decode 15 = .fin neg m e := ⟨rfl, by decide, true, 3, 1, by decide +kernel⟩
theorem witness_VectorIntegerResults : ETy.isInt .i8 = true ∧ ETy.isInt .i64 = true := by decide
theorem witness_ConversionResults : (Instr.vcvt .e2m1 .f32 .sr 1 (.v 2) 0 7).wf = true ∧
    (Instr.vcvtu .f32 .i8 .rz 1 (.v 2) 0 3).wf = true ∧ (Instr.vrand .bf16 1 0).wf = true := by decide +kernel
theorem witness_PermuteResults : ETy.isByte .e5m2 = true ∧ ETy.isByte .i64 = true := by decide
theorem witness_ReductionResults : ETy.isVF .f16 = true ∧ ETy.isInt .i32 = true := by decide
/-- Pairs of equal keys are sorted; so is the least key before the greatest. -/
theorem witness_SortResults :
    let le : Nat × Nat → Nat × Nat → Prop := fun x y => toI 64 x.1 ≤ toI 64 y.1
    (pairsOf ((at0 {}).rv 2) ((at0 {}).rv 3)).Pairwise le ∧
      (pairsOf (BitVec.ofNat 2048 (2 ^ 63)) 0).Pairwise le := by decide +kernel
/-- A list stream for outliers beside two register sources; the outputs of an optimiser's FP32 step. -/
theorem witness_QuantizeAndOptimise :
    (let s := at0 { streams := [(15, { bound := true, kind := 2, ns := 2, n0 := 2, n1 := 1, n2 := 1, n3 := 1, len := 256 })] }
     (Instr.vcvtq .e2m1 .f32 .rne 1 (.v 2) (.v 3) 15 0 7).wf = true ∧ HeadsReady s [.v 2, .v 3] ∧
       (s.me.stream 15).bound = true ∧ (s.me.stream 15).kind = 2) ∧
    (let inp : Stream := { bound := true, ns := 2, n0 := 2, n1 := 1, n2 := 1, n3 := 1, len := 256, filled := [0] }
     let out : Stream := { bound := true, kind := 1, ns := 2, n0 := 2, n1 := 1, n2 := 1, n3 := 1, len := 256 }
     let s := at0 { scalars [(7, 0x5FF00)] with
       streams := [(0, inp), (1, inp), (2, inp), (3, inp), (4, out), (5, out), (6, out), (7, out), (8, out)] }
     (Instr.vadamw .f32 .rne 0 7 false false).wf = true ∧ HeadsReady s (optSrcs 0 false false false true) ∧
       (∀ o ∈ optOuts 0 false false true, (s.me.stream o.1).bound = true ∧ (s.me.stream o.1).kind = 1 ∧
         (s.me.stream o.1).pending < (s.me.stream o.1).ns ∧ (o.2 = true → 0 < (s.me.stream o.1).left)) ∧
       (s.rx 7).toNat < s.extent s.myCore ∧
       (∀ l, l < 16 → tget false (s.spadAddr s.myCore ((s.rx 7).toNat / 256 * 256) / 16 + l) s.spad.err = false) ∧
       NoAcquire s) := by
  unfold HeadsReady NoAcquire
  constructor
  · decide +kernel
  · refine ⟨by decide +kernel, by decide +kernel, by decide +kernel, by decide +kernel, by decide +kernel, by decide +kernel⟩

/-- A context with vector registers. -/
def vectors (l : Tab Row) : Ctx := { regs := { v := l } }

/-- Element `k` of width `w` of v[r] of context 0 of core 0 in an outcome. -/
def vOf (o : Host.Outcome State Fault Refusal) (r : VReg) (w k : Nat) : Option Nat := inNext o fun t => elem w ((t.ctx 0).vr r) k

/-- R62: 1 + 2^-24 ties to even. -/
theorem test_vfadd : vOf (exec (.vfadd .f32 1 (.v 2) (.v 3) 0) (at0 (vectors [(2, 0x3F800000), (3, 0x33800000)]))) 1 32 0 =
    some 0x3F800000 := by decide +kernel
/-- R105: 3 x 4 + 5 = 17. -/
theorem test_vfma : vOf (exec (.vfma .f32 1 (.v 2) (.v 3) (.v 4) 0)
    (at0 (vectors [(2, 0x40400000), (3, 0x40800000), (4, 0x40A00000)]))) 1 32 0 = some 0x41880000 := by decide +kernel
/-- R107: saturation of 100 + 100 in 8 bits. -/
theorem test_vadds : vOf (exec (.vadds .i8 1 (.v 2) (.v 3) 0) (at0 (vectors [(2, 100), (3, 100)]))) 1 8 0 = some 127 := by
  decide +kernel
/-- R107: the plain sum wraps into no other element. -/
theorem test_vadd : vOf (exec (.vadd .i8 1 (.v 2) (.v 3) 0) (at0 (vectors [(2, 200), (3, 100)]))) 1 8 1 = some 0 := by
  decide +kernel
/-- R112: 2.5 to the nearest even integer. -/
theorem test_vcvt : vOf (exec (.vcvt .i32 .f32 .rne 1 (.v 2) 0 0) (at0 (vectors [(2, 0x40200000)]))) 1 32 0 = some 2 := by
  decide +kernel
/-- R116: VCOMP packs the enabled elements. -/
theorem test_vcomp : vOf (exec (.vcomp .i32 1 (.v 2) 1)
    (at0 { regs := { v := [(2, 5 + 6 * 2 ^ 32 + 7 * 2 ^ 64)], m := [(1, 4)] } })) 1 32 0 = some 7 := by decide +kernel
/-- R118: the sum of 64 ones is 64. -/
theorem test_vrsum : vOf (exec (.vrsum .f32 1 (.v 2) 0)
    (at0 (vectors [(2, BitVec.ofNat 2048 (0x3F800000 * ((2 ^ 2048 - 1) / (2 ^ 32 - 1))))]))) 1 32 0 = some 0x42800000 := by
  decide +kernel
/-- R120: the keys 3 and -1 and zeros come out in order. -/
theorem test_vsort : vOf (exec (.vsort 4 2) (at0 (vectors [(2, 3 + (2 ^ 64 - 1) * 2 ^ 64)]))) 4 64 0 = some (2 ^ 64 - 1) ∧
    vOf (exec (.vsort 4 2) (at0 (vectors [(2, 3 + (2 ^ 64 - 1) * 2 ^ 64)]))) 4 64 31 = some 3 := by decide +kernel
/-- R103: an unbound head traps with cause 12. -/
theorem test_unbound_head : (inNext (exec (.vfadd .f32 1 (.head 0 false) (.v 2) 0) (at0 {})) fun t => (t.ctx 0).tr.cause) =
    some 12 := by decide +kernel
/-! ## Scratchpad rows, messages, streams, the array -/

/-- Fields (address, bytes, value) written to the scratchpads. -/
def withSpad (s : State) (l : List (Nat × Nat × Nat)) : State :=
  { s with spad := { s.spad with bytes := l.foldl (fun m f => Memory.write m f.1 f.2.1 f.2.2) s.spad.bytes } }

/-- Fields written to global memory, which translation units 0 and 8 map at virtual pages 0 to 3 to stack 0. -/
def withDram (s : State) (l : List (Nat × Nat × Nat)) : State :=
  let pages : Tab Nat := [(0, 3), (1, 3 + 2 ^ 21), (2, 3 + 2 * 2 ^ 21), (3, 3 + 3 * 2 ^ 21)]
  { s with
    tlb := [(0, pages), (8, pages)]
    dram := { s.dram with bytes := l.foldl (fun m f => Memory.write m f.1 f.2.1 f.2.2) s.dram.bytes } }

/-- A context with scalar, vector and mask registers. -/
def regs3 (x : Tab Word) (v : Tab Row) (m : Tab Word) : Ctx := { regs := { x := x, v := v, m := m } }

/-- The last row of the extent without an error, a ready head to store; and the first address past the extent. -/
theorem witness_RowAccess :
    (let s := at0 { headCtx with regs := { x := [(3, 0x5FFFF)] } }
     let ea := s.rx 3 + (0 : BitVec 32).signExtend 64
     (∀ m ∈ (s.core s.myCore).msgs, m.key = s.iss.key → m.acq = false) ∧ ea.toNat < s.extent s.myCore ∧
       HeadsReady s [.head 0 false] ∧
       ∀ l, l < 16 → tget false (s.spadAddr s.myCore (ea.toNat / 256 * 256) / 16 + l) s.spad.err = false) ∧
    (let o : FusedOp := { num := 0, core := 1, row := 0, kind := .load 5 }
     let s : State := { at0 { regs := { x := [(3, 0x100)] }, fused := [o], vwait := [5] } with spad := { fused := [(0, true)] } }
     (s.rx 3).toNat < s.extent s.myCore ∧ NoAcquire s ∧
       (rowPlace (s.isFused s.myCore) s.myCore ((s.rx 3).toNat / 256)).1 ≠ s.myCore.toNat ∧ s.powered = true ∧
       (s.ctx 0).fused = [o] ∧ 5 ∈ (s.ctx 0).vwait) := by
  unfold HeadsReady NoAcquire; decide +kernel
/-- A head that can be read, with an address past the extent and with one in another core of a fused cluster. -/
theorem witness_RowAccess_2 :
    (let s := at0 { headCtx with regs := { x := [(3, 0x60000)] } }
     s.extent s.myCore ≤ (s.rx 3 + (0 : BitVec 32).signExtend 64).toNat ∧ s.extent s.myCore ≤ (s.rx 3).toNat ∧ NoAcquire s ∧
       (s.me.stream 0).bound = true ∧ (s.me.stream 0).kind = 0 ∧ 0 < (s.me.stream 0).avail) ∧
    (let s : State := { at0 { headCtx with regs := { x := [(3, 0x100)] } } with spad := { fused := [(0, true)] } }
     (s.rx 3 + (0 : BitVec 32).signExtend 64).toNat < s.extent s.myCore ∧ HeadsReady s [.head 0 false] ∧
       (rowPlace (s.isFused s.myCore) s.myCore ((s.rx 3 + (0 : BitVec 32).signExtend 64).toNat / 256)).1 ≠ s.myCore.toNat) := by
  unfold HeadsReady NoAcquire; decide +kernel
/-- R181, R182: CAS stores where the old value equals VC, and returns the old one. -/
theorem test_amo : (inNext (exec (.amo .cas false 1 3 2 4 0 false) (withSpad
      (at0 (regs3 [(3, 0x100)] [(2, 9 + 9 * 2 ^ 32), (4, 7 + 8 * 2 ^ 32)] [])) [(0x100, 4, 7), (0x104, 4, 7)])) fun t =>
    (t.spad.bytes.take 2, elem 32 ((t.ctx 0).vr 1) 1)) = some ([(0x100, 9), (0x104, 7)], 7) := by decide +kernel
/-- R180: STROW stores the lanes of its mask. -/
theorem test_strow : (inNext (exec (.strow (.v 2) 3 0 1) (at0
      (regs3 [(3, 0x100)] [(2, 0x1111111122222222 + 2 ^ 64 * 3)] [(1, 2)]))) fun t => t.spad.bytes) =
    some [(0x104, 0x11), (0x105, 0x11), (0x106, 0x11), (0x107, 0x11)] := by decide +kernel
/-- R176, R182: an AMO of a row of another core of a fused cluster issues, and takes effect afterwards. -/
theorem test_fused : (inNext (exec (.amo .add false 1 3 2 0 0 false) { withSpad
      (at0 (regs3 [(3, 0x100)] [(2, 9)] [])) [(0x60000, 4, 7)] with spad := { bytes := [(0x60000, 7)], fused := [(0, true)] } })
      fun t => (t.spad.bytes, inNext (t.minor (.fused 0)) fun u => (u.spad.bytes, elem 32 ((u.ctx 0).vr 1) 0))) =
    some ([(0x60000, 7)], some ([(0x60000, 16)], 7)) := by decide +kernel
/-- R173: LDROW past the extent traps with cause 9. -/
theorem test_ldrow_range : (inNext (exec (.ldrow 1 3 0) (at0 (scalars [(3, 0x60000)]))) fun t =>
    ((t.ctx 0).tr.cause, (t.ctx 0).tr.eaddr)) = some (9, 0x60000) := by decide +kernel
/-- A ready cluster, a row of its scratchpad, one message short of the limit; the first address past it; a cluster that is
not ready. -/
theorem witness_RemoteRowsSend :
    (let s : State := { atCore { headCtx with regs := { x := [(2, 16), (3, 0x5FF00)] } }
          { msgs := List.replicate 63 ⟨0, 1, 0, .sev 1, true, none⟩ } with clReady := [(1, true)] }
     (s.rx 3).toNat < 0x60000 ∧ tget false ((BitVec.ofNat 12 (s.rx 2).toNat).toNat / 16) s.clReady = true ∧
       (s.core s.myCore).msgs.length < 64 ∧ (∀ m ∈ (s.core s.myCore).msgs, m.key = s.iss.key → m.acq = false) ∧
       HeadsReady s [.head 0 false]) ∧
    (0x60000 ≤ ((at0 (scalars [(3, 0x60000)])).rx 3).toNat) ∧
    (let s := at0 (scalars [(3, 0x5FF00)])
     (s.rx 3).toNat < 0x60000 ∧ tget false ((BitVec.ofNat 12 (s.rx 2).toNat).toNat / 16) s.clReady = false) := by
  unfold HeadsReady NoAcquire; decide +kernel
/-- One message of each kind at the head of a pair, and a load's answer for a register that waits. -/
theorem witness_RemoteMessagesTakeEffect :
    (let l : Msg := ⟨0, 0, 1, .load 5 0x5FF00, true, none⟩
     let s := atCore {} { msgs := [l] }
     s.nextMsg 0 1 = some (0, l) ∧ s.rowBad (1 : CoreNo).toNat (0x5FF00 / 256) 0 256 = false) ∧
    (let l : Msg := ⟨0, 0, 1, .store 0x100 1 7 true, false, none⟩
     let s := atCore {} { msgs := [l] }
     s.nextMsg 0 1 = some (0, l) ∧ (s.core 0).msgs.take 0 = [] ∧ (s.ctx l.key).fused = [] ∧ (s.ctx l.key).outs = []) ∧
    (let l : Msg := ⟨0, 0, 1, .atomic .add false 5 0x5FF00 1 0 0 false, true, none⟩
     let s := atCore {} { msgs := [l] }
     s.nextMsg 0 1 = some (0, l) ∧ s.rowBad (1 : CoreNo).toNat (0x5FF00 / 256) 0 256 = false ∧
       (semFence .mod).stall (at0 {}) = none) ∧
    (let l : Msg := ⟨0, 0, 1, .sev 5, false, none⟩
     (atCore {} { msgs := [l] }).nextMsg 0 1 = some (0, l) ∧
       (∀ c : BitVec 2, (5 : BitVec 4).getLsbD c.toNat = true → ((atCore {} { msgs := [l] }).core 1).evaled ≠ some (0, c)) ∧
       (5 : BitVec 4).getLsbD (2 : BitVec 2).toNat = true ∧ ({ evaled := some (0, 2) } : Core).evaled = some ((at0 {}).clk, 2)) ∧
    (let l : Msg := ⟨0, 0, 1, .load 5 0, true, some (some 7)⟩
     let s := atCore { vwait := [5] } { msgs := [l] }
     (s.core 0).msgs[0]? = some l ∧ l.reply = some (some 7) ∧ 5 ∈ (s.ctx l.key).vwait) := by decide +kernel
/-- R99: a remote SEV takes effect on a clk, and not on it after an evaluation of a context that it names. -/
theorem test_sev_evaluated : let s : Core → State := fun n =>
      { at0 {} with cores := [(0, { msgs := [⟨0, 0, 1, .sev 4, false, none⟩] }), (1, n)] }
    (inNext (exec (.remoteSevArrival 0 1) (s {})) fun t => (t.ctx 6).evt) = some true ∧
    (inNext (exec (.remoteSevArrival 0 1) (s { evaled := some (0, 2) })) fun t => (t.ctx 6).evt) = none := by decide +kernel
/-- R185: a remote load delivers the destination's row. -/
theorem test_remote_load : (inNext (exec (.remoteReplyArrival 0 0) (atCore { vwait := [5] }
      { msgs := [⟨0, 0, 1, .load 5 0, true, some (some 7)⟩] })) fun t => ((t.ctx 0).vr 5, (t.ctx 0).vwait)) = some (7, []) := by
  decide +kernel

/-- A descriptor of two slots of 16 bytes at row 1, read from page 0 with a stride of 256 bytes. -/
def descSpad : List (Nat × Nat × Nat) :=
  [(8, 4, 16), (24, 2, 2), (26, 2, 1), (28, 2, 1), (30, 2, 1), (32, 2, 1), (34, 1, 1)]

/-- A descriptor that holds no reserved value; a stream with one slot filled of which one is advanced; the same past the
buffer and past the pattern, and unbound. -/
theorem witness_StreamInstructions :
    (let s := withSpad (at0 {}) descSpad
     let l := s.block64At s.myCore 0
     s.blockFault 0 = none ∧ descOk l = true ∧ ((descStream l).brow + (descStream l).ns) * 256 ≤ s.extent s.myCore ∧
       (∀ m ∈ (s.core s.myCore).msgs, m.key = s.iss.key → m.acq = false) ∧ (s.me.stream 0).owes = false) ∧
    (let s := withSpad (at0 {}) (descSpad ++ [(32, 2, 0x5FF)])
     let l := s.block64At s.myCore 0
     s.blockFault 0 = none ∧ descOk l = true ∧ NoAcquire s ∧
       s.extent s.myCore < ((descStream l).brow + (descStream l).ns) * 256 ∧ (descStream l).brow * 256 < s.extent s.myCore) ∧
    (let x := (at0 headCtx).me.stream 0
     x.bound = true ∧ x.kind ≠ 2 ∧ 0 < 2 ∧ 2 ≤ x.ns ∧ 2 ≤ x.left ∧ (x.kind = 0 → 2 ≤ x.avail) ∧
       (x.kind ≠ 0 → 2 ≤ x.ns - x.pending) ∧ x.ns < 3 ∧ x.left < 3) ∧
    (let x : Stream := { bound := true, kind := 1, ns := 2, n0 := 2, n1 := 1, n2 := 1, n3 := 1, len := 256 }
     (x.kind = 0 → 2 ≤ x.avail) ∧ (x.kind ≠ 0 → 2 ≤ x.ns - x.pending)) ∧
    ((at0 {}).me.stream 0).bound = false ∧
    (let s := at0 { streams := [(0, { bound := true, kind := 2, ns := 2, n0 := 2, n1 := 1, n2 := 1, n3 := 1, len := 256 })] }
     (s.me.stream 0).bound = true ∧ (s.me.stream 0).kind = 2 ∧
       (s.rx 0 + BitVec.ofNat 64 (0 : BitVec 32).toNat).toNat = 0) := by unfold NoAcquire; decide +kernel
/-- R189, R190: the binding of the descriptor above. -/
theorem test_sbind : (inNext (exec (.sbind 3 0 0) (withSpad (at0 {}) descSpad)) fun t =>
    (((t.ctx 0).stream 3).brow, ((t.ctx 0).stream 3).ns, ((t.ctx 0).stream 3).len, ((t.ctx 0).stream 3).addr 1)) =
    some (1, 2, 16, 256) := by decide +kernel
/-- A read stream of two slots of 16 bytes at row 1, from address 0x40 with a stride of 256; a write stream of rows with
one slot advanced. -/
def inCtx : Ctx :=
  let x : Stream := { bound := true, gbase := 0x40, s0 := 16, n0 := 2, n1 := 1, n2 := 1, n3 := 1, brow := 1, ns := 2, len := 16 }
  { streams := [(0, x)] }
def outCtx : Ctx :=
  let x : Stream := { bound := true, kind := 1, s0 := 16, n0 := 2, n1 := 1, n2 := 1, n3 := 1, brow := 1, ns := 2, len := 256 }
  { streams := [(0, { x with pos := 1, tail := 1, elig := [(0, 0)] })] }

/-- A slot to fill from a mapped page, an advanced slot to drain there, and an optimiser's output. -/
theorem witness_StreamTransfers :
    (let s := withDram (at0 inCtx) [(0x140, 8, 7)]
     let x := (s.ctx 0).stream 0
     x.fillable 1 = true ∧
       s.readBytes (coreDie (keyCore 0)) (s.nowBlk 0) (x.addr 1) x.len = .ok (toBytes 16 7, false)) ∧
    (let s : State := { withDram (at0 outCtx) [] with clk := 1 }
     let x := (s.ctx 0).stream 0
     let pl := rowPlace (s.isFused (keyCore 0)) (keyCore 0) (x.slotRow x.drained)
     s.drainClkOf 0 x = some 0 ∧ s.drainTurn (keyCore 0) 0 = true ∧ s.rowBad pl.1 pl.2 0 (x.drainLen x.drained) = false ∧
       s.writeFault (coreDie (keyCore 0)) (x.addr x.drained) (x.drainLen x.drained) = none ∧
       (∀ p ∈ pagesOf (x.addr x.drained) (x.drainLen x.drained), s.pageMig (coreDie (keyCore 0)) p = false) ∧ s.migHeld = []) ∧
    (let o : OptOut := { num := 0, sn := 4, core := 0, row := 1, mask := 1, data := 7 }
     let q : OptOut := { o with sn := 5 }
     let s := at0 { outs := [o, q] }
     (s.ctx 0).outs.find? (fun o => o.sn == 5) = some q ∧
       ∀ p ∈ (s.ctx 0).outs.takeWhile (fun p => p.sn != 5), p.num = q.num) := by
  refine ⟨⟨?_, ok_of_okIs ?_⟩, ?_, ?_⟩ <;> decide +kernel
/-- R191: the fill puts L bytes and zeros into the slot's row. -/
theorem test_stream_fill : (inNext (exec (.streamFill 0 0 1) (withDram (at0 inCtx) [(0x140, 8, 7)])) fun t =>
    (((t.ctx 0).stream 0).filled, t.spad.bytes)) = some ([1], [(0x200, 7)]) := by decide +kernel
/-- R192, R220: a drain stages a write and leaves global memory. -/
theorem test_stream_drain : (inNext (exec (.streamDrain 0 0)
      { withSpad (withDram (at0 outCtx) []) [(0x100, 1, 5)] with clk := 1 }) fun t =>
    ((t.ctx 0).staged.map (fun w => (w.blk, w.parts.map fun p => elem 8 p.data 0)), t.dram.bytes)) = some ([(0, [5])], []) := by
  decide +kernel

/-- A descriptor of one vector of 32 BF16 elements at row 0; of FP32 elements; of MXFP4 elements with scales. -/
def bfDesc : BitVec 128 := 0x8200000000000
def f32Desc : BitVec 128 := 0x200000000000
def mxDesc : BitVec 128 := 0x0001_0000_003A_0000_0000_0000 + 0x200000000000
/-- A context with them in d0, d1 and d2, and 7 operations that wait in stream 0. -/
def arrayState : State :=
  atCore { d := [(0, bfDesc), (1, f32Desc), (2, mxDesc)] }
    { array := { queues := [(0, List.replicate 7 { id := 0, key := 0, instr := .mzero 0 0 })] } }

theorem witness_MatrixIssue :
    (let s := arrayState
     let da := s.desc 0
     ((s.arr s.myCore).queue 0).countP (fun o => o.started.isNone) < 8 ∧
       s.descFault da (fun t => isWeight t && !(false && t == .lq2)) 32 32 = none ∧
       s.rowsFault s.myCore ((s.rx 0).toNat / 256) 1 = none ∧ ¬ 128 < (127 : BitVec 7).toNat + dVecs da ∧
       s.descFault da isAct 64 128 = none ∧ State.gatherDesc da 127 = none ∧
       (s.after [.v 0]).gatherFault ((s.after [.v 0]).desc 0) ((s.after [.v 0]).src (.v 0)) = none ∧ HeadsReady s [.v 0] ∧
       s.rowsFault s.myCore ((s.rx 0).toNat / 256) 4 = none ∧ s.rowsFault s.myCore ((s.rx 0).toNat / 256) 128 = none ∧
       s.descFault da isSplineIn 32 128 = none ∧ s.pairFault da da = none ∧
       s.rowsFault s.myCore ((s.rx 0).toNat / 256) (gsrcRows .g) = none) ∧
    (let s := arrayState
     ((s.arr s.myCore).queue 0).countP (fun o => o.started.isNone) < 8 ∧ s.drainFault (s.desc 1) 127 false 0 = none ∧
       ETy.isFloat .e2m1 = true) := by unfold HeadsReady NoAcquire; decide +kernel
theorem witness_MatrixControl :
    (let s := at0 {}
     (s.arr s.myCore).queue 0 = [] ∧ ∀ q, ((s.arr s.myCore).queue q).countP (fun o => o.started.isNone) < 8) ∧
    128 < (127 : BitVec 7).toNat + dVecs (0x1000000000 : BitVec 128) ∧
    (bits (bfDesc.toNat + 2 ^ 43) 43 1 ≠ 0 ∧ ¬ 128 < (0 : BitVec 7).toNat + bits (bfDesc.toNat + 2 ^ 43) 36 7 + 1) ∧
    (let s := at0 { d := [(0, BitVec.ofNat 128 (bfDesc.toNat + 0xFFFF))] }
     (descRows (s.desc 0) (dElems (s.desc 0))).find? (fun r => decide (s.extent s.myCore ≤ 256 * r)) = some 0xFFFF) := by
  decide +kernel
/-- R151: MDSET joins two scalars. -/
theorem test_mdset : (inNext (exec (.mdset 2 3 4) (at0 (scalars [(3, 5), (4, 6)]))) fun t => (t.ctx 0).d) =
    some [(2, 0x60000000000000005)] := by decide +kernel
/-- R135: a reserved FMT code traps with cause 10. -/
theorem test_mmul_fault : (inNext (exec (.mmul 0 0 0 0 false false 0) (at0 { d := [(0, 15 * 2 ^ 51)] })) fun t =>
    (t.ctx 0).tr.cause) = some 10 := by decide +kernel
/-- An operation that may start; one that needs a plane in the other mode; started ones of each kind named. -/
theorem witness_MatrixOperations :
    (let o : MatOp := { id := 3, key := 0, instr := .mswap 1 }
     let s := atCore {} { array := { queues := [(1, [o])] } }
     (s.arr 0).queue 1 = o :: [] ∧ (s.arr 0).startable o = true ∧ s.matCheck 0 o = none) ∧
    (let o : MatOp := { id := 3, key := 0, instr := .mspl 1 0 0 false 0, da := bfDesc }
     let s := atCore {} { array := { queues := [(1, [o])] } }
     (s.arr 0).queue 1 = o :: [] ∧ (s.arr 0).startable o = true ∧ s.matCheck 0 o = some 10) ∧
    (∀ i ∈ [Instr.mswap 1, .mzero 1 2, .mgzero 1, .mmul 1 2 3 0 false false 127, .mfence],
      let o : MatOp := { id := 3, key := 0, instr := i, da := bfDesc, started := some 0 }
      let s := atCore {} { array := { queues := [(1, [o])] } }
      (s.arr 0).queue 1 = o :: [] ∧ s.matBad 0 o = none ∧ (o.instr = .mfence → (s.arr 0).earlier o.id = false)) := by
  decide +kernel
/-- R142, R76: one BF16 activation 2 at row 0 and a weight 3 give 6. -/
theorem test_mmul :
    (let w : WeightSet := { cells := [(0, 0x4040)] }
     let o : MatOp := { id := 0, key := 0, instr := .mmul 0 1 0 0 false false 0, da := bfDesc, started := some 0 }
     let s := withSpad (atCore {} { array := { planes := [(0, { sets := [(0, w)] })], queues := [(0, [o])] } }) [(0, 2, 0x4000)]
     (inNext (exec (.matrixOpComplete 0 0) s) fun t => tget 0 0 ((t.arr 0).tile 1).t) = some 0x40C00000) := by decide +kernel
/-- R148: MSWAP exchanges the planes. -/
theorem test_mswap :
    (let o : MatOp := { id := 0, key := 0, instr := .mswap 0, started := some 0 }
     (inNext (exec (.matrixOpComplete 0 0) (atCore {} { array := { queues := [(0, [o])] } })) fun t => (t.arr 0).act) = some 1) := by
  decide +kernel
/-! ## Global memory, copies, Locket -/

/-- A probe set of two slots at row 4: slot 0 as given, slot 1 invalid. -/
def probeCtx (x : ProbeSlot) : Ctx := { scalars [(5, 0x1FF)] with probe := { srow := 4, nslot := 2, slots := [(0, x)] } }

/-- A slot VALID or FILLING with the block asked for; a miss with a dirty victim that can be written back; a set that
fits. -/
theorem witness_ProbeInstructions :
    (∀ st ∈ [ProbeState.valid, .filling],
      let s := at0 (probeCtx { tag := 0x100, st := st })
      let p := s.me.probe
      0 < p.nslot ∧ (p.slot 0).st ≠ .invalid ∧ (p.slot 0).tag = (s.rx 5).toNat / 256 * 256 ∧ (p.slot 0).st = st ∧
        ∀ j, j < 0 → (p.slot j).st = .invalid ∨ (p.slot j).tag ≠ (s.rx 5).toNat / 256 * 256) ∧
    (let s := withDram (at0 { probeCtx { tag := 0x200, st := .valid, dirty := 3 } with
        probe := { srow := 4, nslot := 1, slots := [(0, { tag := 0x200, st := .valid, dirty := 3 })], order := [0] } }) []
     let p := s.me.probe
     (∀ j, j < p.nslot → (p.slot j).st = .invalid ∨ (p.slot j).tag ≠ (s.rx 5).toNat / 256 * 256) ∧ 0 < p.nslot ∧
       (∀ j, j < p.nslot → (p.slot j).st ≠ .invalid) ∧
       (p.order.filter fun j => (p.slot j).st == .valid).getLast? = some 0 ∧
       s.pageMig (unitOf s.iss.key) ((p.slot 0).tag / 2 ^ 21) = false ∧
       s.stageRoom (unitOf s.iss.key) s.iss.key (p.slot 0).tag 1 = true ∧ s.migHeld = [] ∧ s.rowBad 0 4 0 256 = false ∧
       okIs (s.translate (unitOf s.iss.key) (p.slot 0).tag .write) 3 = true) ∧
    ((at0 {}).pinvCfgFault 0x4000004 = none) ∧ (at0 {}).me.probe.nslot = 0 := by decide +kernel
/-- R212: a PROBE of a VALID slot gives the row's address, and one of a FILLING slot branches. -/
theorem test_probe : xOf (exec (.probe 1 5 8) (at0 (probeCtx { tag := 0x100, st := .valid }))) 1 = some 0x400 ∧
    (inNext (exec (.probe 1 5 8) (at0 (probeCtx { tag := 0x100, st := .filling }))) fun t => (t.ctx 0).pc) = some 8 := by
  decide +kernel

/-- A context in its group, with a passed barrier episode. -/
def groupState (c : Ctx) : State := { at0 c with groupMap := [(0, 1)], groupMask := [(0, 1)] }

theorem witness_FillsAtomicsAndReleases :
    (∀ f ∈ [none, some ⟨3, none⟩, some ⟨3, some (7, false)⟩],
      let s := at0 (probeCtx { tag := 0x100, st := .filling, dirty := 1, fill := f })
      let x := (s.ctx 0).probe.slot (0 : BitVec 11).toNat
      x.st = .filling ∧ x.held = false ∧ (0 : BitVec 11).toNat < (s.ctx 0).probe.nslot ∧ x.fill = f ∧
        (s.core (keyCore 0)).evaled ≠ some (s.clk, keyCtx 0)) ∧
    (((atCore {} { evaled := some (0, 0) }).core (keyCore 0)).evaled = some ((atCore {} {}).clk, keyCtx 0)) ∧
    (let s := at0 (scalars [(3, 16)])
     (s.rx 3 + (8 : BitVec 32).signExtend 64).toNat % 8 = 0 ∧ s.me.stagedCount < 1024 ∧
       (s.rx 3 + (4 : BitVec 32).signExtend 64).toNat % 8 ≠ 0) ∧
    (∀ b ∈ [true, false],
      let s := groupState { sys := b, arrived := some ⟨0, 0, true⟩, arrivedSys := some ⟨0, 0, true⟩ }
      s.listed 0 s.iss.key = true ∧ (if s.me.sys then s.me.arrivedSys else s.me.arrived) = some ⟨0, s.iss.pcb, true⟩ ∧ s.abortDue s.iss.key = false ∧
       s.listed 1 s.iss.key = false) ∧
    (let y : ProbeSlot := { tag := 0x200, st := .valid, dirty := 3 }
     let s := withDram (groupState { probeCtx y with arrived := some ⟨0, 0, true⟩ }) []
     s.me.probe.slot 0 = y ∧ y.c = false ∧ (∀ e ∈ s.me.probe.slots, e.1 ≠ 0 → e.2.dirty = 0) ∧
       okIs (s.translate (unitOf s.iss.key) y.tag .write) 3 = true ∧ s.migHeld = [] ∧
       s.pageMig (unitOf s.iss.key) (y.tag / 2 ^ 21) = false ∧ s.stageRoom (unitOf s.iss.key) s.iss.key y.tag 1 = true ∧ s.rowBad 0 4 0 256 = false) ∧
    (let w : Staged := { blk := 1, va := 0x100, parts := [⟨0, 1, 7⟩, ⟨1, 2, 0⟩] }
     let r : Release := { kind := .tdone, ranges := [], epoch := 0, drains := [], copies := [] }
     let s := withDram (at0 { releases := [r], staged := [w], share := { held := true }, run := .parked [], sys := false }) []
     (s.ctx 0).releases = [r] ∧ s.releasable 0 r = true ∧ (s.ctx 0).amogs = [] ∧ w ∈ s.relStaged 0 r ∧
       (s.ctx 0).unstaged = [] ∧ s.migHeld = [] ∧ ((s.relStaged 0 r).map (·.blk)).Nodup ∧ s.blkLost w.blk = false ∧
       (∀ w ∈ s.relStaged 0 r, s.inWindow 0 w.va = false) ∧ (s.ctx 0).share.held = true ∧ (s.ctx 0).run = .parked [] ∧ (s.ctx 0).sys = false) := by
  decide +kernel
/-- R214: a fill keeps the bytes written since. -/
theorem test_probe_fill : (inNext (exec (.probeFillComplete 0 0)
    (at0 (probeCtx { tag := 0x100, st := .filling, dirty := 1, fill := some ⟨3, some (0x0707, false)⟩ }))) fun t =>
    (t.spad.bytes, ((t.ctx 0).probe.slot 0).st)) = some ([(0x401, 7)], .valid) := by decide +kernel
/-- R221: a release commits the staged bytes. -/
theorem test_release :
    (let w : Staged := { blk := 1, va := 0x100, parts := [⟨0, 1, 0x0807⟩] }
     let r : Release := { kind := .phase 0, ranges := [], epoch := 0, drains := [], copies := [] }
     (inNext (exec (.releaseComplete 0) (withDram (at0 { releases := [r], staged := [w] }) [])) fun t =>
       (t.dram.bytes, (t.ctx 0).staged)) = some ([(0x100, 7)], [])) := by decide +kernel
/-- R222: a commit of the context to a block that a fill has read gives the fill its own bytes, and no one else's. -/
theorem test_fill_own_commit :
    (let w : Staged := { blk := 1, va := 0x100, parts := [⟨0, 1, 0x0807⟩] }
     let r : Release := { kind := .chsend 0, ranges := [], epoch := 0, drains := [], copies := [] }
     let c := probeCtx { tag := 0x100, st := .filling, fill := some ⟨3, some (0x0505, false)⟩ }
     (inNext (exec (.releaseComplete 0) (withDram (at0 { c with releases := [r], staged := [w] }) [(0x101, 1, 9)])) fun t =>
       (t.dram.bytes, ((t.ctx 0).probe.slot 0).fill)) = some ([(0x100, 7), (0x101, 9)], some ⟨3, some (0x0507, false)⟩)) := by
  decide +kernel
/-- Channels at the edges of a rebuild: the last channel, a second failure, the last block but one and the last. -/
theorem witness_StacksAndDeadBlocks :
    (let x : StackState := { retired := [7], chan := [(7, .retired)] }
     (383 : BitVec 9).toNat < 384 ∧ tget .normal (383 : BitVec 9).toNat x.chan = .normal ∧
       x.retired.length + x.rebuild.length < 2) ∧
    (let x : StackState := { retired := [7], rebuild := [8], chan := [(7, .retired), (8, .rebuilding)], moved := 58 * 2 ^ 22 - 2 }
     tget .normal (383 : BitVec 9).toNat x.chan = .normal ∧ 2 ≤ x.retired.length + x.rebuild.length ∧
       x.rebuild = 8 :: [] ∧ x.moved + 1 < 58 * 2 ^ 22 ∧ (x.moved + 1) + 1 = 58 * 2 ^ 22) ∧
    (let x : StackState := { chan := [(32, .degraded), (64, .rebuilding)] }
     x.pcFor 0 % 32 = 0 ∧ 32 ∉ x.leftOut 0 ∧ 64 ∉ x.leftOut 0 ∧ tget .normal 32 x.chan = .degraded ∧
       tget .normal 64 x.chan = .rebuilding) := by decide +kernel
/-- R207: with two failed channels of its group a block cannot be read, though its own channel works. -/
theorem test_group_lost : ({ State.reset with dram := { hbm := [(0, { chan := [(32, .degraded), (64, .degraded)] })] } } :
    State).blkLost 0 = true := by decide +kernel
/-- R209: marks of the blocks of a region. -/
theorem test_dead : (inNext (exec (.systemDeadMark 0x100 512) (withDram (at0 {}) [])) fun t => t.dram.dead) =
    some [(1, true), (2, true)] := by decide +kernel

/-- A handle, and a copy channel of die 0. -/
def handleState (c : Ctx) (h : Handle) (x : CopyChan) : State :=
  { atCore c { handles := [(2, h)] } with dies := [(0, { chans := [(3, x)] })] }

theorem witness_HandleInstructions :
    (let s := handleState (scalars [(4, 0x105FF)]) {} {}
     let v := (s.rx 4).toNat
     (s.handle s.myCore 2).st = .free ∧ v < 2 ^ 31 ∧ v / 2 ^ 16 ≠ 0 ∧ (v % 2 ^ 16 + v / 2 ^ 16) * 256 ≤ s.extent s.myCore) ∧
    (let s := handleState (scalars [(4, 0x40)]) { st := .full } { st := .waiting }
     (s.handle s.myCore 2).st = .full ∧ (s.rx 4).toNat % 64 = 0 ∧ (s.rx 4).toNat < 2 ^ 56 ∧
       (s.chan (coreDie s.myCore) 3).st = .waiting) ∧
    (let s := handleState (scalars [(4, 0x40)]) {} {}
     (s.chan (coreDie s.myCore) 3).st = .idle ∧ (s.rx 4).toNat ≠ 0) ∧
    (let s := handleState {} {} {}
     (s.chan (coreDie s.myCore) 3).st = .idle ∧ (s.rx 4).toNat = 0) ∧
    (∀ v ∈ ([0, 0xFFFF, 0x80000000, 0xFFFFFFFFFFFFFFFF] : List Nat),
      let x := ((handleState (scalars [(4, BitVec.ofNat 64 v)]) {} {}).rx 4).toNat
      2 ^ 31 ≤ x ∨ x / 2 ^ 16 = 0) ∧
    (∀ v ∈ ([0x10600, 0x205FF, 0x7FFF0000] : List Nat),
      let s := handleState (scalars [(4, BitVec.ofNat 64 v)]) {} {}
      let x := (s.rx 4).toNat
      x < 2 ^ 31 ∧ x / 2 ^ 16 ≠ 0 ∧ s.extent s.myCore < (x % 2 ^ 16 + x / 2 ^ 16) * 256) ∧
    (∀ v ∈ ([1, 0x100000000000000, 0xFFFFFFFFFFFFFFC0] : List Nat),
      let x := ((handleState (scalars [(4, BitVec.ofNat 64 v)]) {} {}).rx 4).toNat
      2 ^ 56 ≤ x ∨ x % 64 ≠ 0) ∧
    (∀ st ∈ [HState.free, .full],
      let s := handleState { regs := { v := [(6, 0x10 + 0x120 * 2 ^ 64)] } } { st := st, nrows := 2 } {}
      (∀ l ∈ (List.range ((1 : VReg).toNat + 1)).map (fun i => elem 64 (s.rv 6) i), l % 16 = 0) ∧
        (1 : VReg).toNat + 1 ≤ (s.handle s.myCore 2).nrows ∧ (s.handle s.myCore 2).st = st) ∧
    (let s := handleState { regs := { v := [(6, 0x10 + 0x128 * 2 ^ 64)] } } { nrows := 1 } {}
     (s.handle s.myCore 2).nrows < (1 : VReg).toNat + 1) ∧
    (let s := handleState { regs := { v := [(6, 0x10 + 0x128 * 2 ^ 64)] } } { nrows := 2 } {}
     (1 : VReg).toNat + 1 ≤ (s.handle s.myCore 2).nrows ∧
       ((List.range ((1 : VReg).toNat + 1)).map fun i => elem 64 (s.rv 6) i).find? (fun l => l % 16 != 0) = some 0x128) := by
  decide +kernel
/-- R232, R235: BWAIT reads the status of a FULL handle. -/
theorem test_bwait : xOf (exec (.bwait 1 2 false) (handleState {} { st := .full, status := 9 } {})) 1 = some 9 := by decide +kernel

/-- A record that is pending at address 0x40: its last piece copies 16 bytes of address 0x80 to the scratchpad of core 0
at 0x20, without a handle or with handle 2. -/
def recordBytes (own ctl : Nat) : List (Nat × Nat × Nat) :=
  [(0x48, 8, 0x80), (0x50, 8, 2 ^ 63 + 0x20), (0x58, 4, 16), (0x5C, 4, 1), (0x68, 1, own + ctl), (0x69, 1, if ctl = 4 then 2 else 0),
   (0x80, 8, 0x55)]
/-- The record as taken up. -/
def copyRec (piece : Nat) : CopyRec :=
  { next := 0, src := 0x80, dst := 2 ^ 63 + 0x20, len := 16, count := 1, sstr := 0, dstr := 0, decomp := false
    handle := some 2, piece := piece, notlive := false, got := true }
/-- The state with that record and a walking channel. -/
def copyState (own ctl : Nat) (cur : Option CopyRec) : State :=
  withDram (handleState {} { st := .filling } { st := .walking, addr := 0x40, cur := cur }) (recordBytes own ctl)

/-- Whether a write leaves a state as it was and goes on. -/
def doneAs (e : WriteEnd) (s : State) : Bool := match e with | .done u => decide (u = s) | _ => false
theorem done_of {e : WriteEnd} {s : State} (h : doneAs e s = true) : e = .done s := by
  cases e <;> simp_all [doneAs]

/-- The 64 bytes of the record in global memory. -/
def recordAt (s : State) : List Byte := tgetN 0 0x40 64 s.dram.bytes

theorem witness_CopyEvents_1 :
    (∀ own ∈ [0, 1],
      let s := copyState own 0 none
      let x := s.chan 0 3
      x.st = .walking ∧ x.cur = none ∧ s.commitRecord 0 3 = .done s ∧ s.readVA 0 (some x.owner) x.addr 64 = .ok (recordAt s, false) ∧
        ((recordAt s).getD 40 0).getLsbD 0 = decide (own = 1) ∧ copyOk (recordAt s) = true ∧
        (copyFields (recordAt s)).handle = none) ∧
    (let s := copyState 1 8 none
     let x := s.chan 0 3
     x.st = .walking ∧ x.cur = none ∧ s.commitRecord 0 3 = .done s ∧ s.readVA 0 (some x.owner) x.addr 64 = .ok (recordAt s, false) ∧
       ((recordAt s).getD 40 0).getLsbD 0 = true ∧ copyOk (recordAt s) = false) := by
  refine ⟨?_, ?_, ?_, done_of ?_, ok_of_okIs ?_, ?_⟩
  · intro own h
    have : own = 0 ∨ own = 1 := by simpa using h
    rcases this with rfl | rfl <;> refine ⟨?_, ?_, done_of ?_, ok_of_okIs ?_, ?_⟩ <;> decide +kernel
  all_goals decide +kernel
theorem witness_CopyEvents_2 :
    (let s := copyState 1 4 (some (copyRec 0))
     let x := s.chan 0 3
     x.st = .walking ∧ x.cur = some (copyRec 0) ∧ (copyRec 0).piece < (copyRec 0).count ∧
       s.pieceRead 0 x.owner (copyRec 0) 0 = .ok (toBytes 16 0x55, false) ∧ inSpad (copyRec 0).dst = true) ∧
    (∀ h ∈ [none, some 2],
      let r := { copyRec 1 with handle := h }
      let s := copyState 1 4 (some r)
      let x := s.chan 0 3
      x.cur = some r ∧ r.piece = r.count ∧ s.translate 0 x.addr .write = .ok 3 ∧ s.pageMig 0 (x.addr / 2 ^ 21) = false ∧
        s.migHeld = [] ∧ x.addr % 64 = 0 ∧ s.blkLost (pteByte 3 x.addr / 256) = false) := by
  refine ⟨⟨?_, ?_, ?_, ok_of_okIs ?_, ?_⟩, fun h m => ?_⟩
  iterate 5 decide +kernel
  have : h = none ∨ h = some 2 := by simpa using m
  rcases this with rfl | rfl <;> refine ⟨?_, ?_, ok_of_okIs ?_, ?_⟩ <;> decide +kernel
/-- A gather of two lanes and a scatter of two. -/
def gatherState (scatter : Bool) : State :=
  let g : Gather := { key := 0, h := 2, scatter := scatter, addrs := [0x40, 0x180], id := 0, held := false }
  withDram (atCore {} { handles := [(2, { st := .filling, brow := 0x5FE, nrows := 2 })], gathers := [g] })
    [(0x40, 8, 5), (0x180, 8, 6)]
theorem witness_CopyEvents_3 :
    (let s := gatherState false
     let g := (s.core 0).gathers.headD { key := 0, h := 0, scatter := true, addrs := [], id := 0, held := true }
     (s.core 0).gathers.find? (fun g => g.h == 2 && !g.scatter && !g.held) = some g ∧
       ((s.handle 0 2).brow + g.addrs.length) * 256 ≤ s.extent 0 ∧ (s.ctx g.key).samples = [] ∧
       s.readVA (coreDie 0) (some g.key) 0x40 256 = .ok (toBytes 256 (5 + 6 * 2 ^ (8 * 320)), false) ∧
       s.readVA (coreDie 0) (some g.key) 0x180 256 = .ok (toBytes 256 6, false)) ∧
    (let s := gatherState true
     let g := (s.core 0).gathers.headD { key := 0, h := 0, scatter := true, addrs := [], id := 0, held := true }
     (s.core 0).gathers.find? (fun g => g.h == 2 && g.scatter && !g.held) = some g ∧ g.rows = none ∧ g.lane = 0 ∧
       s.scatterFault 0 g (s.handle 0 2).brow = none ∧
       (∀ a ∈ g.addrs, ∀ p ∈ pagesOf a 256, s.pageMig (coreDie 0) p = false) ∧
       s.migHeld = [] ∧ (s.ctx g.key).stagedCount + 2 * g.addrs.length ≤ 1024 ∧
       ∀ a ∈ g.addrs, s.writeFault (coreDie 0) a 256 = none) := by
  refine ⟨⟨?_, ?_, ?_, ok_of_okIs ?_, ok_of_okIs ?_⟩, ?_⟩ <;> decide +kernel
/-- A scatter whose second lane names a page without an entry, and one whose second row is in error. -/
theorem witness_CopyEvents_5 :
    (let g : Gather := { key := 0, h := 2, scatter := true, addrs := [0x40, 2 ^ 40], id := 0, held := false }
     let s := withDram (atCore {} { handles := [(2, { st := .draining, brow := 0x5FE, nrows := 2 })], gathers := [g] }) []
     (s.core 0).gathers.find? (fun g => g.h == 2 && g.scatter && !g.held) = some g ∧ g.rows = none ∧ g.lane = 0 ∧
       s.scatterFault 0 g (s.handle 0 2).brow = none ∧
       (∀ a ∈ g.addrs, ∀ p ∈ pagesOf a 256, s.pageMig (coreDie 0) p = false) ∧ s.migHeld = [] ∧
       (s.ctx g.key).stagedCount + 2 * g.addrs.length ≤ 1024 ∧ g.addrs[1]? = some (2 ^ 40) ∧
       (∀ b ∈ g.addrs.take 1, s.writeFault (coreDie 0) b 256 = none) ∧
       s.writeFault (coreDie 0) (2 ^ 40) 256 = some (7, 2 ^ 40)) ∧
    (let s : State := { gatherState true with spad := { err := [(16 * 0x5FF, true)] } }
     let g := (s.core 0).gathers.headD { key := 0, h := 0, scatter := true, addrs := [], id := 0, held := true }
     (s.core 0).gathers.find? (fun g => g.h == 2 && g.scatter && !g.held) = some g ∧ g.rows = none ∧ g.lane = 0 ∧
       s.scatterFault 0 g (s.handle 0 2).brow = some (1, 256 * 0x5FF)) := by decide +kernel
/-- A piece for global memory with room and no window; a record with a handle that is not FREE, on a clk when its core issues
no more. -/
theorem witness_CopyEvents_4 :
    (let s := copyState 1 4 (some (copyRec 0))
     s.writeFault 0 0x180 16 = none ∧ s.stageRoom 0 0 0x180 16 = true ∧
       (∀ p ∈ pagesOf 0x180 16, s.pageMig 0 p = false) ∧ s.migHeld = []) ∧
    (let s := copyState 1 4 (some { copyRec 0 with got := false })
     (s.handle 0 2).st ≠ .free ∧ s.issueOver 0 = true) := by decide +kernel
/-- R238: a piece of 16 bytes reaches the scratchpad. -/
theorem test_copy_piece : (inNext (exec (.copyRecord 0 3) (copyState 1 4 (some (copyRec 0)))) fun t => t.spad.bytes) =
    some [(0x20, 0x55)] := by decide +kernel
/-- R240: completion clears OWN and fills the handle. -/
theorem test_copy_complete : (inNext (exec (.copyRecordComplete 0 3) (copyState 1 4 (some (copyRec 1)))) fun t =>
    ((tget 0 0x68 t.dram.bytes).getLsbD 0, (t.handle 0 2).st, (t.chan 0 3).st)) = some (false, .full, .idle) := by decide +kernel
/-- R244: row 1 of a gather. -/
theorem test_gather : (inNext (exec (.xgathComplete 0 2) (gatherState false)) fun t =>
    (tget 0 (0x5FF * 256) t.spad.bytes, (t.handle 0 2).st)) = some (6, .full) := by decide +kernel

/-- A STASH command block: a region of 256 bytes at page 1, tag 7, stage 1, slot 3. -/
def stashSpad : List (Nat × Nat × Nat) := [(0, 8, 2 ^ 21), (8, 4, 256), (12, 4, 7), (16, 1, 1), (17, 1, 3)]
theorem witness_StashCommands :
    (let s := withSpad (at0 {}) stashSpad
     let l := s.block64At s.myCore 0
     s.blockFault 0 = none ∧ (∀ m ∈ (s.core s.myCore).msgs, m.key = s.iss.key → m.acq = false) ∧
       (s.handle s.myCore 2).st = .free ∧
       ∀ k ∈ [StashKind.c false true false, .s true, .d, .p, .f, .q 4], stashBlockOk k l = true) := by decide +kernel
/-- The command of that block, received. -/
def stashCmdOf (k : StashKind) (ret : Option (Word × List Byte)) : StashCmd :=
  { id := 0, key := 0, h := 2, kind := k, region := 2 ^ 21, len := 256, tag := 7, stage := 1, slot := 3, held := false, ret := ret }
/-- Locket with pools of 64 KiB for stage 1, and the command on its way or received. -/
def stashState (sent rx : List StashCmd) (es : List StashEntry) : State :=
  { withDram (atCore {} { handles := [(2, { st := .filling, nrows := 1 })] }) [] with
    stash := sent, stashRx := rx
    locket := [(1, { hbase := BitVec.ofNat 64 (2 * 2 ^ 21), hsize := 65536, lbase := BitVec.ofNat 64 (3 * 2 ^ 21)
                     lsize := 65536, entries := es })] }
theorem witness_StashEvents_1 :
    (∀ k ∈ [StashKind.d, .q 4],
      let c := stashCmdOf k none
      let s := stashState [c] [] []
      s.stash.find? (fun y => y.key == 0) = some c ∧ (∀ r ∈ (s.ctx 0).releases, r.kind ≠ .stash c.id) ∧ c.key = 0) ∧
    (let c := stashCmdOf .p none
     let s := stashState [] [c] []
     s.stashRx[0]? = some c ∧ c.held = false ∧ (∀ y ∈ s.stashRx.take 0, y.same c = false) ∧ c.ret = none ∧
       c.result (s.lstage c.stage) 0 (s.handle 0 c.h).nrows ≠ 0) ∧
    (let c := stashCmdOf (.s false) none
     let s := stashState [c] [] []
     s.stashRx = [] ∧ c.ret = none ∧ c.kind.storesData = true ∧ c.result (s.lstage c.stage) 0 (s.handle 0 c.h).nrows = 0) ∧
    (let c := stashCmdOf .p (some (0x30, List.replicate 256 1))
     let s := stashState [] [c] []
     s.stashRx[0]? = some c ∧ c.held = false ∧ (∀ y ∈ s.stashRx.take 0, y.same c = false) ∧
       c.ret = some (0x30, List.replicate 256 1) ∧
       ((s.handle (keyCore c.key) c.h).brow + (List.replicate 256 (1 : Byte)).length / 256) * 256 ≤ s.extent (keyCore c.key)) := by
  decide +kernel
/-- Each command whose result is OK, with room in its pool. -/
theorem witness_StashEvents_2 :
    ∀ p ∈ [(StashKind.c true false true, ([] : List StashEntry)), (.s false, []), (.d, []), (.f, []),
        (.p, [{ tag := 7, slot := 3, st := .spilled, kind := 2, bf16 := false, off := 0, size := 256, len := 256, data := [] }])],
      let c := stashCmdOf p.1 none
      let s := stashState [] [c] p.2
      s.stashRx[0]? = some c ∧ c.ret = none ∧ c.result (s.lstage c.stage) 0 (s.handle 0 c.h).nrows = 0 ∧
        (∀ lp m, c.need = some (lp, m) → (s.lstage c.stage).freeAt lp (256 * 1) m = true) ∧
        ∃ u size nl bs, s.stashWork c 1 = .ok (u, size, nl, bs) := by
  intro p h
  simp only [List.mem_cons, List.not_mem_nil, or_false] at h
  have ex : ∀ (s : State) (c : StashCmd), isOk (s.stashWork c 1) = true →
      ∃ u size nl bs, s.stashWork c 1 = .ok (u, size, nl, bs) := by
    intro s c he
    obtain ⟨⟨u, size, nl, bs⟩, hv⟩ := ok_of_isOk he
    exact ⟨u, size, nl, bs, hv⟩
  have free : ∀ (c : StashCmd) (x : LocketStage),
      (match c.need with | some (lp, m) => x.freeAt lp (256 * 1) m | none => true) = true →
      ∀ lp m, c.need = some (lp, m) → x.freeAt lp (256 * 1) m = true := by
    intro c x hc lp m hm
    rw [hm] at hc
    exact hc
  rcases h with rfl | rfl | rfl | rfl | rfl <;>
    exact ⟨by decide +kernel, by decide +kernel, by decide +kernel, free _ _ (by decide +kernel), ex _ _ (by decide +kernel)⟩
/-- R248: STASHD leaves a DROPPED entry. -/
theorem test_stashd : (inNext (exec (.stashCommandComplete 0 1) (stashState [] [stashCmdOf .d none] [])) fun t =>
    ((t.lstage 1).find 7 3).map fun e => (e.st, e.kind)) = some (some (.dropped, 3)) := by decide +kernel
/-! ## Tasks, launch queues, Clasp -/

/-- A task of slot 0 of die 0 that runs with a job of four records, its first chunk open for context 0 of core 0, which
holds a share; group 0 holds that context and the next. -/
def jobCard : Card :=
  { entry := 0x1000, dict := 0x200, args := 0x4000, rsize := 16, count := 4, minch := 2, cpr := 0, ovh := 0, abent := 0x2000,
    jcb := 0x800, mode := 0, jslots := 2 }
def running (next : Nat) (es : List JEntry) : Task :=
  { st := .running, job := some jobCard, next := next, open_ := es, shares := 1, dealt := true, mem := [0, 1] }
def taskState (c : Ctx) (t : Task) : State :=
  { withDram (at0 c) [] with
    dies := [(0, { tasks := [(0, t)], running := [0] })], groupMap := [(0, 1)], groupMask := [(0, 3)], funcready := 1 }
/-- The share of that context. -/
def shareCtx (chunk : Option Chunk) : Ctx := { sys := false, run := .ready, share := { held := true, task := 65536, chunk := chunk } }
/-- The open entry. -/
def entry0 : JEntry := { idx := 0, first := 0, last := 2, cursor := 0, owner := some 0 }
def chunk0 : Option Chunk := some { entry := 0, first := 0, last := 2 }

theorem witness_TaskInstructions :
    (let s := (withSpad (at0 {}) [(4, 2, 1)]).flush
     s.blockFault 0 = none ∧ recordOk (s.block64At s.myCore 0) = true) ∧
    (let s := (withSpad (at0 {}) [(0, 1, 1)]).flush
     s.blockFault 0 = none ∧ recordOk (s.block64At s.myCore 0) = false ∧ s.me.share.held = false) ∧
    NoAcquire (withSpad (at0 {}) [(4, 2, 1)]) ∧ NoAcquire (withSpad (at0 {}) [(0, 1, 1)]) ∧
    (let s := taskState (shareCtx none) { running 0 [] with abort := true }
     s.me.share.held = true ∧ s.abortDue s.iss.key = true ∧ s.me.xwait = [] ∧
       s.findTask s.me.share.task = some (0, 0, { running 0 [] with abort := true }) ∧
       { running 0 [] with abort := true }.job = some jobCard) ∧
    (let s := taskState (shareCtx none) (running 0 [])
     s.me.share.held = true ∧ s.fullOf s.iss.key = 0 ∧ s.abortDue s.iss.key = false ∧
       s.findTask s.me.share.task = some (0, 0, running 0 [])) := by
  unfold NoAcquire
  decide +kernel
/-- R260: EARLY sends one decrement to each successor whose valid bit stands. -/
theorem test_early : (inNext (exec .early (taskState (shareCtx none) { running 0 [] with succ := [0x31003, 0x1004] })) fun t =>
    ((t.die 1).decs.map fun m => (m.id, m.early, m.n), (t.die 0).decs)) = some ([(0x11003, true, 1)], []) := by decide +kernel
/-- R272: the abort entry takes the PC and the cursor. -/
theorem test_abchk : (inNext (exec .abchk (taskState (shareCtx chunk0) { running 2 [{ entry0 with cursor := 1 }] with abort := true }))
    fun t => ((t.ctx 0).pc, (t.ctx 0).xr 1, (t.ctx 0).xr 3)) = some (0x1000, 65536, 1) := by decide +kernel
theorem witness_ChunkInstructions :
    (let s := taskState (shareCtx chunk0) (running 2 [entry0])
     s.me.share.held = true ∧ s.me.stop ≠ .running ∧ s.abortDue s.iss.key = false ∧
       (∃ x e v, (s.endChunk 0).findTask s.me.share.task = some (0, 0, x) ∧ x.job = some jobCard ∧
         (s.endChunk 0).takeChunk 0 0 0 = some (e, v)) ∧
       s.openEntry 0 = some (0, 0, jobCard, entry0) ∧ 0 + 2 ≤ entry0.last ∧ entry0.last < 0 + 3 ∧
       ∀ mo ∈ [[], [0]],
         let s := { s with migOpen := mo }
         let w := jobCard.jcb + 64 + 16 * entry0.idx + 8
         s.openEntry 0 = some (0, 0, jobCard, entry0) ∧ jobCard.jcb % 64 = 0 ∧ s.migHeld = [] ∧ s.writeFault 0 w 4 = none ∧
           isOk (s.readVA 0 none w 4) = true ∧ s.pageMig 0 (w / 2 ^ 21) = mo.contains 0 ∧ s.pte 0 w = some 3 ∧
           s.blkLost (pteByte 3 w / 256) = false) ∧
    (let s := taskState (shareCtx chunk0) (running 4 [entry0])
     s.abortDue s.iss.key = false ∧
       ∀ d j x, (s.endChunk 0).findTask s.me.share.task = some (d, j, x) → (s.endChunk 0).takeChunk d j 0 = none) ∧
    (let s := taskState (shareCtx none) (running 4 [])
     s.me.share.held = true ∧ s.openEntry 0 = none) ∧ (at0 {}).me.share.held = false := by
  have some_ : ∀ {α : Type} (o : Option α), o.isSome = true → ∃ v, o = some v := fun o h => Option.isSome_iff_exists.mp h
  have wit : ∀ (s : State) (d k : Nat) (key : CtxKey), (s.takeChunk d k key).isSome = true → ∃ e v, s.takeChunk d k key = some (e, v) := by
    intro s d k key h
    obtain ⟨⟨e, v⟩, h⟩ := some_ _ h
    exact ⟨e, v, h⟩
  refine ⟨⟨by decide +kernel, by decide +kernel, by decide +kernel, ?_, by decide +kernel⟩, ⟨by decide +kernel, ?_⟩, by decide +kernel⟩
  · obtain ⟨e, v, h⟩ := wit ((taskState (shareCtx chunk0) (running 2 [entry0])).endChunk 0) 0 0 0 (by decide +kernel)
    exact ⟨{ running 2 [] with donec := 2 }, e, v, by decide +kernel, rfl, h⟩
  · intro d j x h
    have h2 : ((taskState (shareCtx chunk0) (running 4 [entry0])).endChunk 0).findTask 65536 =
        some (0, 0, { running 4 [] with donec := 2 }) := by decide +kernel
    have h3 := h.symm.trans h2
    injection h3 with h3
    injection h3 with hd h3
    injection h3 with hj _
    subst hd hj
    decide +kernel
/-- R264, R266: JNEXT takes the records 2 and 3, and the job then has none left. -/
theorem test_jnext : (inNext (exec (.jnext 8) (taskState (shareCtx chunk0) (running 2 [entry0]))) fun t =>
      ((t.ctx 0).pc, (t.ctx 0).xr 1, (t.ctx 0).xr 2, (t.ctx 0).xr 3)) = some (8, 0x4020, 2, 2) ∧
    (inNext (exec (.jnext 8) (taskState (shareCtx chunk0) (running 4 [entry0]))) fun t =>
      ((t.ctx 0).pc, (t.ctx 0).xr 2)) = some (0, 0) := by decide +kernel

/-- A dispatcher with one request, decrement and abort message. -/
def dispState (t : Tab Task) (m : DecMsg) : State :=
  { at0 { xwait := [4], replies := [(4, 9)] } with
    funcready := 1
    dies := [(0, { tasks := t, arms := [{ reply := some (0, 4), record := List.replicate 64 0 }], decs := [m], aborts := [65536] })] }
/-- Every slot of a table armed. -/
def fullTable : Tab Task := (List.range 4096).map fun i => (i, { st := .ready })
theorem fullTable_not_free : ∀ i, i < 4096 → (tget ({} : Task) i fullTable).st ≠ .free := by
  have h : ∀ (n k i : Nat), k ≤ i → i < k + n →
      tget ({} : Task) i ((List.range' k n).map fun j => (j, ({ st := .ready } : Task))) = { st := .ready } := by
    intro n
    induction n with
    | zero => intro k i h1 h2; omega
    | succ n ih =>
      intro k i h1 h2
      simp only [List.range'_succ, List.map_cons, tget]
      by_cases e : k = i
      · simp [e]
      · rw [if_neg e]
        exact ih (k + 1) i (by omega) (by omega)
  intro i hi
  have := h 4096 0 i (by omega) (by omega)
  simp only [fullTable, List.range_eq_range']
  rw [this]
  decide
theorem dispState_task (t : Tab Task) (m : DecMsg) (i : Nat) : (dispState t m).taskAt 0 i = tget {} i t := rfl
theorem witness_DispatcherEvents :
    (let m : DecMsg := { src := 0, id := 65537, low := false, early := false, n := 3 }
     let x : Task := { st := .waiting, full := 3 }
     let s := dispState [(0, { st := .ready }), (1, x)] m
     s.dieUp 0 = true ∧ (s.die 0).arms[0]? = some { reply := some (0, 4), record := List.replicate 64 0 } ∧
       (s.taskAt 0 2).st = .free ∧ (∀ i, i < 2 → (s.taskAt 0 i).st ≠ .free) ∧ (s.die 0).decs[0]? = some m ∧
       (∀ y ∈ (s.die 0).decs.take 0, y.src ≠ m.src) ∧ (s.taskAt 0 1).st ≠ .free ∧ m.id / 2 ^ 15 % 2 = 0 ∧
       (s.taskAt 0 1).gen.toNat = m.id / 2 ^ 16 % 2 ^ 16 ∧ (s.taskAt 0 1).st = .waiting ∧
       (s.die 0).aborts[0]? = some 65536 ∧ (s.ctx 0).replies[0]? = some (4, 9) ∧ 4 ∈ (s.ctx 0).xwait) ∧
    (∀ early ∈ [true, false],
      let m : DecMsg := { src := 0, id := 65537, low := false, early := early, n := 3 }
      ∀ x ∈ [({ st := .waiting, earlyc := 3, full := 3 } : Task), { st := .early, earlyc := 4, full := 3 },
          { st := .waiting, earlyc := 4, full := 4 }],
        let s := dispState [(1, x)] m
        (s.taskAt 0 1).st ≠ .free ∧ (s.taskAt 0 1).gen.toNat = m.id / 2 ^ 16 % 2 ^ 16 ∧ m.ack = none) ∧
    (let m : DecMsg := { src := 0, id := 131073, low := false, early := false, n := 3 }
     let s := dispState [(1, { st := .waiting, full := 3 })] m
     ¬ (s.taskAt 0 1).gen.toNat = m.id / 2 ^ 16 % 2 ^ 16) ∧
    (let s := dispState fullTable { src := 0, id := 0, low := false, early := false, n := 0 }
     ∀ i, i < 4096 → (s.taskAt 0 i).st ≠ .free) :=
  ⟨by decide +kernel, by decide +kernel, by decide +kernel, fun i hi => by rw [dispState_task]; exact fullTable_not_free i hi⟩
/-- R259: the last early decrement makes a waiting task EARLY and puts it last into the ready queue of its rank. -/
theorem test_early_decrement : (inNext (exec (.taskDecrementArrival 0 0) (dispState [(1, { st := .waiting, earlyc := 3, full := 3, rank := 2 })]
    { src := 0, id := 65537, low := false, early := true, n := 3 })) fun t => ((t.taskAt 0 1).st, tget [] 2 (t.die 0).ready)) =
    some (.early, [1]) := by decide +kernel
/-- R259: the last decrement readies the task. -/
theorem test_decrement : (inNext (exec (.taskDecrementArrival 0 0) (dispState [(1, { st := .waiting, full := 3 })]
    { src := 0, id := 65537, low := false, early := false, n := 3 })) fun t => ((t.taskAt 0 1).st, (t.taskAt 0 1).full)) =
    some (.ready, 0) := by decide +kernel
/-- R258: the lowest free slot is armed, and the reply holds its generation. -/
theorem test_arm : (inNext (exec (.taskArmRequest 0 0) (dispState [(0, { st := .ready })]
    { src := 0, id := 0, low := false, early := false, n := 0 })) fun t => ((t.taskAt 0 1).st, (t.ctx 0).replies)) =
    some (.ready, [(4, 9), (4, 65537)]) := by decide +kernel

/-- A job card at 0x600 in global memory with its control block at 0x800, and a dictionary of one entry at 0x200. -/
def cardDram : List (Nat × Nat × Nat) :=
  [(0x600, 8, 0x1000), (0x608, 8, 0x200), (0x610, 8, 0x4000), (0x618, 4, 16), (0x61C, 4, 4), (0x620, 4, 2), (0x62C, 8, 0x2000),
   (0x634, 8, 0x800), (0x63D, 2, 2), (0x200, 8, 5), (0x208, 2, 1)]
/-- A dealt context; a task that is ready on rank 0. -/
def dealtState : State :=
  let s := taskState { share := { deal := some { task := 65536, entry := 0, first := 0, last := 2, fuse := false, bad := none,
                                                 dict := some (5, 1), isFirst := true } } } (running 2 [entry0])
  { withDram s cardDram with ctxs := s.ctxs }
def readyState : State :=
  let s := taskState {} { st := .ready, card := 0x600 }
  { withDram s cardDram with dies := [(0, { tasks := [(0, { st := .ready, card := 0x600 })], ready := [(0, [0])] })] }
theorem witness_SharesAndArbitration_1 :
    (let s := taskState {} (running 0 [])
     s.dieUp 0 = true ∧ (s.die 0).running = [0] ∧ s.dealTo 0 0 (s.taskAt 0 0) = some 0 ∧ (s.taskAt 0 0).bad = none ∧
       (s.takeChunk 0 0 0).isSome = true) ∧
    (let s := dealtState
     (s.ctx 0).share.deal = some { task := 65536, entry := 0, first := 0, last := 2, fuse := false, bad := none,
                                   dict := some (5, 1), isFirst := true } ∧ (s.ctx 0).xwait = [] ∧
       s.findTask 65536 = some (0, 0, running 2 [entry0]) ∧ (running 2 [entry0]).job = some jobCard ∧
       isOk (s.loadWindow 0 jobCard.dict) = true) ∧
    (let s : State := { at0 {} with clk := 64, dies := [(0, { period := 64 })] }
     (s.die 0).period.toNat ≠ 0 ∧ s.clk % (s.die 0).period.toNat = 0 ∧ (s.die 0).point ≠ some s.clk) ∧
    (let s : State := { at0 { budget := { remain := 10, since := 5, counting := true, off := false } } with clk := 15 }
     (s.ctx 0).budget.counting = true ∧ (s.ctx 0).budget.off = false ∧
       (s.ctx 0).budget.since + (s.ctx 0).budget.remain ≤ s.clk) := by decide +kernel
theorem witness_SharesAndArbitration_2 :
    let s := readyState
    let l := tgetN 0 0x600 64 s.dram.bytes
    let b := tgetN 0 0x800 96 s.dram.bytes
    s.clk % 4 = 0 ∧ s.dieUp 0 = true ∧ (∃ q, coreDie (keyCore q) = 0 ∧ (s.ctx q).run = .idle) ∧ (s.die 0).acted ≠ some s.clk ∧
      s.pick 0 = some 0 ∧ s.readVA 0 none (s.taskAt 0 0).card 64 = .ok (l, false) ∧ cardOk l = true ∧
      s.jcbBad 0 (cardOf l) = none ∧
      s.readVA 0 none (cardOf l).jcb (64 + 16 * (cardOf l).jslots) = .ok (b, false) ∧ b.getD 8 0 = 0 :=
  ⟨by decide +kernel, by decide +kernel, ⟨0, by decide +kernel, by decide +kernel⟩, by decide +kernel, by decide +kernel,
   ok_of_okIs (by decide +kernel), by decide +kernel, by decide +kernel, ok_of_okIs (by decide +kernel), by decide +kernel⟩
/-- R265: a share starts at ENTRY, in user mode, with its arguments. -/
theorem test_share_start : (inNext (exec (.shareStart 0) dealtState) fun t =>
    ((t.ctx 0).pc, (t.ctx 0).sys, (t.ctx 0).xr 1, (t.ctx 0).xr 2)) = some (0x800, false, 0x4000, 2) := by decide +kernel
/-- R262: the arbiter's pick starts the task. -/
theorem test_arbiter : (inNext (exec (.arbiterPick 0) readyState) fun t => ((t.taskAt 0 0).st, (t.die 0).running)) =
    some (.running, [0]) := by decide +kernel

/-- Queue 0 with a ring of 16 packets at 0x100, its first packet as given. -/
def queueState (x : LaunchQ) (p : List (Nat × Nat × Nat)) : State :=
  { withDram (at0 {}) (p ++ [(0x600, 2, 0)]) with queues := [(0, { x with base := 0x100 })], funcready := 1 }
/-- The packet at the head. -/
def packetAt (s : State) : List Byte := tgetN 0 0x100 64 s.dram.bytes
theorem witness_LaunchQueues_1 :
    (∀ st ∈ [0, 1, 3],
      let y : LaunchQ := { st := st, size := 16, wp := 3, rp := 2 }
      y.st ≠ 2 ∧ y.size < (19 - y.rp : BitVec 32).toNat ∧ (18 - y.rp : BitVec 32).toNat ≤ y.size) ∧
    (let x : LaunchQ := { st := 3, size := 16, wp := 18, rp := 2 }
     x.st = 3 ∧ (x.wp - x.rp).toNat ≤ x.size ∧ 1 < x.st) ∧ ({ st := 2 } : LaunchQ).st ≠ 3 ∧
    (let s := queueState { st := 0, wp := 1 } [(0x104, 4, 2)]
     s.headPacket 0 = some (some (packetAt s)) ∧
       BitVec.ofNat 32 (dfield (packetAt s) 4 4) &&& ~~~(s.funcready.setWidth 32) ≠ 0) ∧
    (∀ kind ∈ [0, 1, 2, 3, 4],
      let s := queueState { st := 0, wp := 1 } [(0x100, 1, kind), (0x104, 4, 1), (0x108, 8, 0x600)]
      s.headPacket 0 = some (some (packetAt s)) ∧
        BitVec.ofNat 32 (dfield (packetAt s) 4 4) &&& ~~~(s.funcready.setWidth 32) = 0 ∧ packetOk (packetAt s) = true ∧
        dfield (packetAt s) 0 1 = kind ∧ okIs (s.readVA 8 none (dfield (packetAt s) 8 8) 64) (List.replicate 64 0, false) = true ∧
        recordOk (List.replicate 64 0) = true ∧ s.dieUp (dfield (packetAt s) 16 8) = true ∧ (s.taskAt 0 0).st = .free) ∧
    (let x : ClaspStage := { cfg := [(21, 2 ^ 32)], queues := [(0, List.replicate 255 (1, 0))] }
     x.limit ≠ 0 ∧ (tget [] 0 x.queues).length < 256) := by decide +kernel
/-- A packet from this module for peer queue 1, and that queue. -/
def peerState (x : LaunchQ) (acl : Tab Word) : State :=
  { withDram (at0 {}) [] with
    queues := [(65, x)], acl := acl
    peers := [{ key := 0, xd := 4, src := 0, q := 1, packet := 4 :: List.replicate 63 7 }] }
/-- An entry that covers every packet of queue 1 (R275). -/
def aclEntry : Word := BitVec.ofNat 64 (2 ^ 63 + 31 * 2 ^ 31 + 2 ^ 24)
theorem witness_LaunchQueues_2 :
    (let s := at0 (scalars [(2, 2 ^ 12)])
     s.blockFault (s.rx 3) = none ∧ BitVec.ofNat 12 (s.rx 2).toNat = s.ownMod) ∧
    (let s : State := { at0 (scalars [(2, 1)]) with torus := { dims := 0x10102, portstat := 0x22222222 } }
     s.blockFault (s.rx 3) = none ∧ BitVec.ofNat 12 (s.rx 2).toNat ≠ s.ownMod ∧ s.reachable (BitVec.ofNat 12 (s.rx 2).toNat) = true) ∧
    (let s := at0 (scalars [(2, 1)])
     BitVec.ofNat 12 (s.rx 2).toNat ≠ s.ownMod ∧ s.reachable (BitVec.ofNat 12 (s.rx 2).toNat) = false) ∧
    (let s := peerState { st := 1, base := 0x100, wp := 17, rp := 2 } [(255, aclEntry)]
     let p : PeerPacket := { key := 0, xd := 4, src := 0, q := 1, packet := 4 :: List.replicate 63 7 }
     let x := s.queue (64 + p.q.toNat)
     let va := x.base + 64 * (x.wp.toNat % x.size)
     s.peers[0]? = some p ∧ p.src = s.ownMod ∧
       (∀ y ∈ s.peers.take 0, ¬ (y.src = p.src ∧ y.key = p.key ∧ y.q = p.q)) ∧
       (∃ i, i < 256 ∧ aclCovers (tget 0 i s.acl) p.src p.q (dfield p.packet 0 1) = true) ∧ x.st ≤ 1 ∧
       (x.wp + 1 - x.rp).toNat ≤ x.size ∧ p.packet.length = 64 ∧ x.base % 64 = 0 ∧ s.pte 8 va = some 3 ∧
       s.writeFault 8 va 64 = none ∧
       tget false (pteByte 3 va / 256) s.dram.dead = false ∧ s.blkLost (pteByte 3 va / 256) = false ∧ s.migHeld = [] ∧
       ∀ mo ∈ [[], [0]], ({ s with migOpen := mo } : State).pageMig 8 (va / 2 ^ 21) = mo.contains 0) ∧
    (let s := peerState { st := 1, base := 2 ^ 23 - 64, wp := 17, rp := 2 } [(255, aclEntry)]
     let x := s.queue 65
     s.writeFault 8 (x.base + 64 * (x.wp.toNat % x.size)) 64 = some (7, 2 ^ 23) ∧ x.st ≤ 1) ∧
    (∃ i, i < 256 ∧ aclCovers (tget 0 i [(255, aclEntry)]) 0 1 4 = true) ∧
    (¬ ∃ i, i < 256 ∧ aclCovers (tget 0 i []) 0 1 0 = true) ∧ 1 < ({ st := 2 } : LaunchQ).st :=
  ⟨by decide +kernel, by decide +kernel, by decide +kernel,
   ⟨by decide +kernel, by decide +kernel, by decide +kernel, ⟨255, by decide +kernel, by decide +kernel⟩, by decide +kernel⟩,
   by decide +kernel, ⟨255, by decide +kernel, by decide +kernel⟩, fun ⟨_, _, h⟩ => absurd h (by simp only [tget]; decide +kernel +revert), by decide⟩
/-- R201: a packet for a page that may not be written is not written, and WP stays. -/
theorem test_peer_page : (let s := peerState { st := 1, base := 0x100 } [(0, aclEntry)]
    [s, { s with tlb := [(8, [(0, 1)])] }].map fun s => inNext (exec (.peerPacketArrival 0) s) fun t =>
      [(t.queue 65).wp.toNat, (t.queue 65).errc, t.dram.bytes.length, ((t.ctx 0).replies.map fun r => r.2.toNat).sum]) =
    [some [1, 0, 64, 0], some [0, 1, 0, 1]] := by decide +kernel
/-- R274: a held head packet, and an arming one. -/
theorem test_launch : (inNext (exec (.launchArm 0) (queueState { st := 0, wp := 1 } [(0x100, 1, 1), (0x104, 4, 1), (0x108, 8, 0x600)]))
      fun t => ((t.taskAt 0 0).st, (t.queue 0).rp)) = some (.ready, 1) ∧
    (inNext (exec (.launchNop 0) (queueState { st := 0, wp := 1 } [(0x104, 4, 3)])) fun t => ((t.queue 0).st, (t.queue 0).why)) =
      some (1, 2) := by decide +kernel
/-- A stage with tag 1 in flight under version 0. -/
def claspStage : ClaspStage := { cfg := [(21, 2 ^ 32)], inflight := [(1, 0)], users := [(0, 1)], vers := [(0, .held), (1, .current)], curv := 1 }
def claspState (x : ClaspStage) (op : ClaspOp) : State :=
  { at0 {} with clasp := [(2, x)], claspReqs := [{ key := 0, xd := 4, stage := 2, op := op }] }
theorem witness_ClaspRequests :
    (let s := claspState claspStage (.post .b 9)
     let r : ClaspReq := { key := 0, xd := 4, stage := 2, op := .post .b 9 }
     s.claspReqs[0]? = some r ∧ (∀ y ∈ s.claspReqs.take 0, r.samePost y = false) ∧ (s.stage 2).limit ≠ 0 ∧
       (tget [] (claspQNum .b) (s.stage 2).queues).length < 256) ∧
    ({} : ClaspStage).limit = 0 ∧
    (let x : ClaspStage := { claspStage with queues := [(1, List.replicate 256 (0, 0))] }
     x.limit ≠ 0 ∧ 256 ≤ (tget [] 1 x.queues).length) ∧
    claspStage.version 1 = some 0 ∧ tget 0 0 claspStage.users = 1 ∧ tget VerState.free 0 claspStage.vers = .held ∧
    claspStage.version 2 = none ∧ claspStage.inflight.length < 256 ∧
    (let x : ClaspStage := { inflight := List.replicate 256 (1, 0) }
     x.version 2 = none ∧ 256 ≤ x.inflight.length) ∧
    (let x : ClaspStage := { claspStage with users := [(0, 2)] }
     1 < tget 0 0 x.users) ∧
    (let x : ClaspStage := { inflight := [(1, 0)], users := [(0, 1)], vers := [(0, .current)] }
     x.version 1 = some 0 ∧ tget 0 0 x.users = 1 ∧ tget VerState.free 0 x.vers ≠ .held) ∧
    (2 < 8 ∧ tget VerState.free 2 claspStage.vers = .free ∧ ∀ i, i < 2 → tget VerState.free i claspStage.vers ≠ .free) ∧
    (let x : ClaspStage := { vers := (List.range 8).map fun i => (i, .alloc) }
     (∀ i, i < 8 → tget VerState.free i x.vers ≠ .free) ∧ tget VerState.free 7 x.vers = .alloc) ∧
    tget VerState.free 0 claspStage.vers ≠ .alloc := by decide +kernel
/-- R285: the last user of a HELD version frees it. -/
theorem test_verput : (inNext (exec (.claspRequestArrival 0) (claspState claspStage (.rel 1))) fun t =>
    ((t.stage 2).vers, (t.ctx 0).replies)) = some ([(1, .current)], [(4, 0)]) := by decide +kernel
/-- R285: a CURRENT version outlives its last user. -/
theorem test_verput_current : (inNext (exec (.claspRequestArrival 0) (claspState
      { cfg := [(21, 2 ^ 32)], inflight := [(1, 0)], users := [(0, 1)], vers := [(0, .current)] } (.rel 1))) fun t =>
    ((t.stage 2).vers, (t.stage 2).inflight, (t.ctx 0).replies)) = some ([(0, .current)], [], [(4, 0)]) := by decide +kernel

/-- A stage that evaluates with a row for queue F, whose template at 0x600 names die 0. -/
def evalState (pol : Word) (rec_ : Nat) : State :=
  { withDram (at0 {}) [(0x600, 1, rec_)] with
    clk := 8, funcready := 1
    clasp := [(2, { cfg := [(0, pol), (16, 0x600), (21, 2 ^ 32)], queues := [(0, [(7, 3)])] })] }
theorem witness_ClaspEvaluation :
    (∀ p ∈ [((0 : Word), none), (8, some 0)],
      let s := evalState p.1 0
      let x := s.stage 2
      s.clk % 8 = 0 ∧ x.insts < x.limit ∧ (∃ i, i < 5 ∧ tget [] i x.queues ≠ []) ∧ x.held = false ∧ x.last ≠ some s.clk ∧
        x.choose (tget ({} : LocketStage) 2 s.locket).entries.length s.clk = p.2 ∧ tget [] 0 x.queues = [(7, 3)] ∧
        (s.template x 0 7).isSome = true ∧ s.dieUp x.tdie = true ∧ (s.taskAt x.tdie 0).st = .free) ∧
    (let s := evalState 8 1
     s.template (s.stage 2) 0 7 = none) ∧
    ({ cfg := [(21, 16 * 2 ^ 32)] } : ClaspStage).configOk = true ∧ ({ cfg := [(21, 17 * 2 ^ 32)] } : ClaspStage).configOk = false := by
  refine ⟨?_, by decide +kernel⟩
  intro p h
  simp only [List.mem_cons, List.not_mem_nil, or_false] at h
  rcases h with rfl | rfl <;>
    exact ⟨by decide +kernel, by decide +kernel, ⟨0, by decide +kernel, by decide +kernel⟩, by decide +kernel⟩
/-- The same stage with a table of its die. -/
def evalTable (t : Tab Task) : State := { evalState 8 0 with dies := [(0, { tasks := t })] }
theorem evalTable_task (t : Tab Task) (i : Nat) : (evalTable t).taskAt 0 i = tget {} i t := rfl
/-- The same stage with no free slot in that table. -/
theorem witness_ClaspEvaluation_2 : let s := evalTable fullTable
    (s.stage 2).choose (tget ({} : LocketStage) 2 s.locket).entries.length s.clk = some 0 ∧ (s.stage 2).tdie = 0 ∧
      (s.template (s.stage 2) 0 7).isSome = true ∧ ∀ i, i < 4096 → (s.taskAt 0 i).st ≠ .free :=
  ⟨by decide +kernel, by decide +kernel, by decide +kernel, fun i h => by rw [evalTable_task]; exact fullTable_not_free i h⟩
/-- R283: the oldest tag is armed as a task. -/
theorem test_evaluate : (inNext (exec (.claspEvaluate 2) (evalState 8 0)) fun t =>
    ((t.taskAt 0 0).st, (t.taskAt 0 0).tag, (t.stage 2).queues.length)) = some (.ready, 7, 0) := by decide +kernel

/-! ## Channels, collectives, routing, the torus -/

/-- Channel 5: a send end or receive end of core 0, its peer channel 6 of this module or module 1. -/
def chanState (role peer : Nat) (x : ChanEnd) : State :=
  { atCore (scalars [(3, 0x100), (4, 16)]) { handles := [(2, { nrows := 1, brow := 3 })] } with
    funcready := 1
    ends := [(5, { x with w0 := BitVec.ofNat 64 (role + 65536 * peer + 2 ^ 32 * 6), w1 := BitVec.ofNat 64 (2 ^ 33 + 0x100) })] }
theorem witness_ChannelInstructions :
    (let s := chanState 1 0 { win := 1 }
     ∀ spad ∈ [true, false], s.chsendFault spad 5 (s.rx 3) (s.rx 4) = none ∧ (s.chEnd 5).win ≠ 0) ∧
    ((chanState 2 0 {}).chEnd 5).role ≠ 1 ∧
    (let s := chanState 2 0 {}
     s.chwinFault 5 1 = none ∧ (s.rx 0 + BitVec.ofNat 64 (1 : BitVec 24).toNat).toNat ≠ 0 ∧ (s.chEnd 5).peerMod = s.ownMod) ∧
    (let s : State := { chanState 2 1 {} with torus := { dims := 0x10102, portstat := 0x22222222 } }
     s.chwinFault 5 1 = none ∧ (s.chEnd 5).peerMod ≠ s.ownMod ∧ s.reachable (s.chEnd 5).peerMod = true) ∧
    (let s := chanState 2 1 {}
     s.chwinFault 5 1 = none ∧ s.reachable (s.chEnd 5).peerMod = false) ∧
    (let s := chanState 2 0 {}
     s.chwinFault 5 0 = none ∧ (s.rx 0 + BitVec.ofNat 64 (0 : BitVec 24).toNat).toNat = 0) ∧
    (let s := chanState 2 0 { outst := 1 }
     let e := s.chEnd 5
     e.role = 2 ∧ e.core = s.myCore ∧ e.ns < e.outst + (s.rx 0 + BitVec.ofNat 64 (1 : BitVec 24).toNat).toNat) ∧
    ((chanState 1 0 {}).chEnd 5).role ≠ 2 ∧ ((chanState 1 0 { broken := true }).chEnd 5).broken = true ∧
    (let e := (chanState 1 0 {}).chEnd 5
     e.role = 1 ∧ e.core = (chanState 1 0 {}).myCore ∧ e.broken = false ∧ e.slotb = 256 ∧ (e.slotb < 272 ∧ 8 % 16 ≠ 0)) := by
  decide +kernel
/-- R293: CHSEND takes a slot of the window. -/
theorem test_chsend : (inNext (exec (.chsend true 1 3 4 5) (chanState 1 0 { win := 1 })) fun t =>
    ((t.chEnd 5).win, (t.chEnd 5).pend, t.sends.length)) = some (0, 1, 1) := by decide +kernel
theorem witness_ChannelEvents :
    (let m : ChSend := { id := 0, key := 0, ch := 5, q := 0, tag := 9, spad := true, addr := 0x100, len := 16, data := none, held := false }
     let s : State := { chanState 1 0 { pend := 1 } with sends := [m] }
     s.sends.find? (fun m => m.ch == 5) = some m ∧ (∀ r ∈ (s.ctx m.key).releases, r.kind ≠ .chsend m.id) ∧
       s.rowsData (keyCore m.key) (m.addr / 256) (payloadRows m.len) = some (List.replicate 256 0) ∧
       (s.chEnd 5).peerMod = s.ownMod ∧ s.reachable (s.chEnd 5).peerMod = true ∧ m.held = false ∧ m.data = none) ∧
    isOk ((withDram (at0 {}) []).readVA 0 (some 0) 0x100 16) = true ∧
    (let m : ChSend := { id := 0, key := 0, ch := 5, q := 0, tag := 9, spad := true, addr := 0x100, len := 16,
                         data := some [1], held := false }
     let o : OutMsg := { dst := 1, msg := .payload 0 5 6 0 9 [1], send := some m }
     let s : State := { chanState 1 1 {} with out := [o] }
     s.out.find? (fun o => match o.send with | some m => m.ch == 5 | none => false) = some o ∧ o.send = some m) := by decide +kernel
/-- A payload of number q from a module waits for channel 5. -/
def payState (q : BitVec 32) (src : BitVec 12) : State :=
  { chanState 2 0 { outst := 1 } with inbox := [.payload src 6 5 q 9 [7]] }
theorem witness_ChannelEvents_2 :
    (let s : State := { chanState 1 0 {} with inbox := [.grant 0 6 5 3] }
     s.nextGrant 5 = some (.grant 0 6 5 3) ∧ (s.chEnd 5).role = 1 ∧ (s.chEnd 5).peerMod = 0 ∧
       (s.chEnd 5).peerCh = 6 ∧ (s.chEnd 5).peerMod ≠ 1) ∧
    (payState 0 0).nextPayload 5 = some (true, .payload 0 6 5 0 9 [7]) ∧
    (payState 0 1).nextPayload 5 = some (false, .payload 1 6 5 0 9 [7]) ∧ (payState 1 0).nextPayload 5 = none ∧
    (let s := payState 0 0
     let e := s.chEnd 5
     let x := s.handle e.core e.handle
     e.role = 2 ∧
        e.peerMod = 0 ∧ e.peerCh = 6 ∧ e.fill = none ∧ x.st = .free ∧ s.issueOver e.core = true ∧
        s.dieUp (coreDie e.core) = true ∧ e.rseq = 0 ∧ 1 ≤ 256 * x.nrows ∧ (x.brow + payloadRows 1) * 256 ≤ s.extent e.core) ∧
    (let s : State := { chanState 2 0 { outst := 1 } with
       cores := [(0, { handles := [(2, { nrows := 0, st := .full })] })], inbox := [.payload 0 6 5 0 9 [7]] }
     let x := s.handle (s.chEnd 5).core (s.chEnd 5).handle
     x.st ≠ .free ∧ 256 * x.nrows < 1 ∧ s.nextPayload 5 = some (true, .payload 0 6 5 0 9 [7])) := by decide +kernel
/-- Receive ends that post: with POST 1 to queue M of stage 2, with room there and without, and with POST 2 to a task. -/
def postState (post : Nat) (n : Nat) : State :=
  { payState 0 0 with
    ends := [(5, { w0 := BitVec.ofNat 64 (2 + 2 ^ 32 * 6), w2 := 0x13005, outst := 1
                   w1 := BitVec.ofNat 64 (2 ^ 33 + 0x100 + 2 ^ 40 * post + 2 ^ 44 * 2 + 2 ^ 48 * 2) })]
    clasp := [(2, { cfg := [(21, 2 ^ 32)], queues := [(2, List.replicate n (0, 0))] })] }
theorem witness_ChannelEvents_3 :
    (∀ n ∈ [255, 256],
      let s := postState 1 n
      let e := s.chEnd 5
      let x := s.handle e.core e.handle
      e.post = 1 ∧ e.queue < 5 ∧ (s.stage e.vstage).limit ≠ 0 ∧ (tget [] e.queue (s.stage e.vstage).queues).length = n ∧
        s.nextPayload 5 = some (true, .payload 0 6 5 0 9 [7]) ∧ e.fill = none ∧ x.st = .free ∧ s.issueOver e.core = true ∧
        s.dieUp (coreDie e.core) = true ∧ 1 ≤ 256 * x.nrows ∧ (x.brow + payloadRows 1) * 256 ≤ s.extent e.core) ∧
    ((postState 2 0).chEnd 5).post = 2 ∧ ((postState 2 0).chEnd 5).task / 2 ^ 12 % 8 = 3 := by decide +kernel
/-- R294: POST 2 sends a decrement of one to the dispatcher of the task's die; POST 1 posts the tag. -/
theorem test_post : (inNext (exec (.channelReceipt 5) (postState 2 0)) fun t => ((t.die 3).decs.map fun m => (m.id, m.n))) =
      some [(0x13005, 1)] ∧
    (inNext (exec (.channelReceipt 5) (postState 1 0)) fun t => (t.stage 2).queues) = some [(2, [(9, 0)])] := by decide +kernel
/-- R294: a payload fills the rows of the slot's handle. -/
theorem test_receipt : (inNext (exec (.channelReceipt 5)
    { chanState 2 0 { outst := 1 } with inbox := [.payload 0 6 5 0 9 (toBytes 16 7)] }) fun t =>
    ((t.handle 0 2).st, t.spad.bytes, (t.chEnd 5).outst)) = some (.full, [(0x300, 7)], 0) := by decide +kernel

/-- A descriptor of an all-reduce of two I32 elements from 0x100 to 0x200 on ring 0. -/
def collSpad : List (Nat × Nat × Nat) := [(0, 8, 0x100), (8, 8, 0x200), (16, 4, 2), (21, 1, 10)]
def collDescOf (seq : BitVec 32) : CollDesc :=
  { src := 0x100, dst := 0x200, count := 2, op := 0, shard := false, ty := .i32, e := 0, ring := 0, seq := seq }
/-- A ring of two whose other member has arrived with its SRC, what this member has sent round the ring, and context 0 with
its slots. -/
def ringWith (c : Tab CollSlot) (next : BitVec 32) (own : List (Nat × BitVec 32 × List Byte)) (d : CollDesc)
    (errs : List (BitVec 32 × Nat)) (portstat : Word) : State :=
  { withSpad (withDram (at0 { scalars [(3, 3)] with colls := c }) [(0x100, 4, 5), (0x104, 4, 6)]) collSpad with
    torus := { dims := 0x10102, portstat := portstat }
    rings := [(0, { w0 := 0x100000002, w2 := 1, next := next, members := [(1, d)], errs := errs
                    data := own ++ [(1, 1, toBytes 4 7 ++ toBytes 4 8)] })] }
def ownSrc : List (Nat × BitVec 32 × List Byte) := [(0, 1, toBytes 4 5 ++ toBytes 4 6)]
def ringState (c : Tab CollSlot) (next : BitVec 32) : State := ringWith c next [] (collDescOf 1) [] 0x22222222
def slot (begun : Bool) : CollSlot := { st := 1, desc := some (collDescOf 1), begun := begun }
theorem witness_Collectives_1 :
    (let s := (ringState [(0, slot true)] 1).flush
     s.collFault 0 = none ∧ collDesc (s.block64At s.myCore 0) = some (collDescOf 0) ∧ (s.me.coll 1).st = 0 ∧
       (∀ j, j < 1 → (s.me.coll j).st ≠ 0) ∧ s.collsInFlight < 64 ∧ (s.rx 3).toNat < 4 ∧ (s.me.coll 3).st < 2 ∧ NoAcquire s ∧
       (s.ring 0).n ≠ 1 ∧ ¬ ∃ e ∈ (s.ring 0).sides.take 1, s.torus.port e.2 ≠ 2) ∧
    (let s := (ringWith [] 0 [] (collDescOf 1) [(1, 4)] 0x20222222).flush
     s.collFault 0 = none ∧ s.collsInFlight < 64 ∧ (s.ring 0).n ≠ 1 ∧
       (∃ e ∈ (s.ring 0).sides.take 1, s.torus.port e.2 ≠ 2) ∧ seqPast (s.ring 0).next 0 = false ∧ ∀ e ∈ (s.ring 0).errs, e.1 ≠ 0) ∧
    ({ w0 := 0x100000001, w2 := 1 } : Ring).n = 1 ∧
    (let s := (ringState ((List.range 4).map fun i => (i, { st := 2, desc := some (collDescOf 0) })) 1).flush
     s.collFault 0 = none ∧ (∀ j, j < 4 → (s.me.coll j).st ≠ 0) ∧ (s.rx 3).toNat < 4 ∧ 2 ≤ (s.me.coll 3).st) ∧
    (let full : Ctx := { colls := (List.range 4).map fun i => (i, slot true) }
     let s : State := State.flush { ringState [] 1 with ctxs := (0, {}) :: (List.range 16).map fun i => (4 * i + 4, full) }
     s.collFault 0 = none ∧ (s.me.coll 0).st = 0 ∧ 64 ≤ s.collsInFlight) ∧
    4 ≤ ((at0 (scalars [(3, 4)])).rx 3).toNat := by
  unfold NoAcquire
  decide +kernel
theorem witness_Collectives_2 :
    (let s := ringState [(2, slot false)] 2
     s.ringSlots 0 = [(0, 2, collDescOf 1)] ∧ (∀ r ∈ (s.ctx 0).releases, r.kind ≠ .coll 2) ∧ ((s.ctx 0).coll 2).begun = false ∧
       seqPast (s.ring 0).next 1 = true ∧ (s.core (keyCore 0)).evaled ≠ some (s.clk, keyCtx 0)) ∧
    (({ ringState [(2, slot false)] 2 with cores := [(0, { evaled := some (0, 0) })] } : State).core (keyCore 0)).evaled = some (0, keyCtx 0) ∧
    (let s := ringState [(2, slot false), (3, { st := 1, desc := some (collDescOf 2), begun := true })] 2
     s.ringSlots 0 = [(0, 2, collDescOf 1), (0, 3, collDescOf 2)] ∧ ((s.ctx 0).coll 2).begun = false ∧
       ((s.ctx 0).coll 3).begun = true ∧ seqPast (s.ring 0).next 1 = true ∧ ∀ e ∈ (s.ring 0).errs, e.1 ≠ (s.ring 0).next + 1) ∧
    (let s := ringState [(2, slot false)] 1
     let x := s.ring 0
     (collDescOf 1).seq = x.next ∧ s.collError x 0 (collDescOf 1) = none ∧
       (∀ m, m < 2 → m ≠ 0 → ∃ y ∈ [(1, collDescOf 1)], y.1 = m ∧ y.2.seq = x.next) ∧ x.members = [(1, collDescOf 1)] ∧
       x.n = 2 ∧ x.rank = 0 ∧ s.collMemFault x (unitOf 0) (collDescOf 1) = none) := by decide +kernel
/-- A collective that can complete, and one whose DST is in a migration window. -/
theorem witness_Collectives_4 :
    (let s := ringWith [(2, slot true)] 1 ownSrc (collDescOf 1) [] 0x22222222
     let x := s.ring 0
     let d := collDescOf 1
     s.ringSlots 0 = [(0, 2, d)] ∧ ((s.ctx 0).coll 2).begun = true ∧
       (∀ w ∈ d.writes x, s.writeFault (unitOf 0) (d.dst + w.1) w.2 = none) ∧ (∀ e ∈ x.errs, e.1 ≠ x.next) ∧ d.seq = x.next ∧
       (s.core (keyCore 0)).evaled ≠ some (s.clk, keyCtx 0) ∧ s.migHeld = [] ∧ d.writes x = [(0, 8)] ∧ pagesOf (d.dst + 0) 8 = [0] ∧ s.pageMig (unitOf 0) 0 = false ∧
       ({ s with migOpen := [0] } : State).pageMig (unitOf 0) 0 = true ∧
       (∀ m, m < 2 → ∃ y ∈ x.data, y.1 = m ∧ y.2.1 = d.seq) ∧ d.op ≠ 1 ∧ d.len ≤ 256 ∧ d.dst % 256 = 0 ∧
       s.pte (unitOf 0) d.dst = some 3 ∧ tget false (pteByte 3 d.dst / 256) s.dram.dead = false ∧
       s.blkLost (pteByte 3 d.dst / 256) = false ∧ (collData x d).1.length = d.len) := by decide +kernel
/-- A collective that ends in error: a descriptor of another member that does not agree, an error that another member sent, a
port that is down, a buffer of an unmapped page. -/
theorem witness_Collectives_3 :
    (let s := ringWith [(2, slot false)] 1 [] { collDescOf 1 with count := 1 } [] 0x22222222
     let x := s.ring 0
     s.collError x 0 (collDescOf 1) = some 1 ∧ (∀ e ∈ x.errs, e.1 ≠ x.next) ∧ s.ringUp x = true ∧ 1 < x.n ∧
       x.members.find? (fun m => m.1 == 1 && m.2.seq == x.next) = some (1, { collDescOf 1 with count := 1 }) ∧
       ({ collDescOf 1 with count := 1 } : CollDesc).agrees (collDescOf 1) = false) ∧
    (let s := ringWith [(2, slot true)] 1 ownSrc (collDescOf 1) [(1, 4)] 0x22222222
     (s.ring 0).errs.find? (fun e => e.1 == (s.ring 0).next) = some ((s.ring 0).next, 4)) ∧
    (let y : CollSlot := { st := 2, desc := some (collDescOf 1), ranges := [(0x100, 8), (0x200, 8)] }
     let s := at0 { probeCtx { tag := 0x200, st := .valid } with colls := [(3, y)] }
     let s := { s with iss := { s.iss with regs := { x := [(3, 3)] } } }
     (s.rx 3).toNat < 4 ∧ 2 ≤ (s.me.coll 3).st ∧ (s.me.coll 3).ranges ≠ [] ∧ (s.me.probe.slot 0).c = false ∧
       inRanges (s.me.coll 3).ranges (s.me.probe.slot 0).tag 256 = true) ∧
    (let s : State := { ringState [(2, slot false)] 1 with rings := [(0, { w0 := 0x100000002, w2 := 1, next := 1 })], torus := {} }
     (∀ e ∈ (s.ring 0).errs, e.1 ≠ (s.ring 0).next) ∧ s.ringUp (s.ring 0) = false) ∧
    (let d : CollDesc := { collDescOf 1 with src := 2 ^ 40 }
     let s := ringWith [(2, { slot false with desc := some d })] 1 [] d [] 0x22222222
     s.ringSlots 0 = [(0, 2, d)] ∧ s.collError (s.ring 0) 0 d = none ∧
       s.collMemFault (s.ring 0) (unitOf 0) d = some (7, 2 ^ 40)) := by decide +kernel
/-- Two members' contributions in either order, for each element type, as an all-gather, and as a reduce-scatter of either
rank. -/
theorem witness_Collectives_5 :
    (∀ own ∈ [true, false], ∀ op ∈ [0, 1, 2], ∀ ty ∈ [ETy.i32, .f32],
      let la := toBytes 4 5 ++ toBytes 4 6
      let lb := toBytes 4 7 ++ toBytes 4 8
      let d : CollDesc := { collDescOf 1 with op := op, ty := ty }
      let x : Ring := { w0 := if own then 0x100000002 else 0x100010002, w2 := 1, next := 1
                        data := if own then [(0, 1, la), (1, 1, lb)] else [(1, 1, lb), (0, 1, la)] }
      x.n = 2 ∧ x.rank = (if own then 0 else 1) ∧ la.length = d.len ∧ lb.length = d.len ∧
        (x.data = [(0, d.seq, la), (1, d.seq, lb)] ∨ x.data = [(1, d.seq, lb), (0, d.seq, la)])) ∧
    (∀ ty ∈ [ETy.bf16, .i64], collBytes ty = if ty = .i64 then 8 else 2) := by decide +kernel
/-- R301: the float sums of two members, an inexact one, one that saturates and overflows, and one of opposite infinities. -/
theorem test_collective_floats :
    (let x : List Byte → List Byte → Ring := fun a b => { w0 := 0x100000002, w2 := 1, data := [(0, 1, a), (1, 1, b)] }
     let d : CollDesc := { collDescOf 1 with count := 1, ty := .f32 }
     (collData (x (toBytes 4 0x3F800000) (toBytes 4 0x40000000)) d = (toBytes 4 0x40400000, 0)) ∧
     (collData (x (toBytes 4 0x00000001) (toBytes 4 0x3F800000)) d = (toBytes 4 0x3F800000, 4)) ∧
     (collData (x (toBytes 4 0x7F000000) (toBytes 4 0x7F000000)) { d with e := 110 } = (toBytes 4 0x7F800000, 16)) ∧
     (collData (x (toBytes 4 0x7F000000) (toBytes 4 0)) d).2 = 8 ∧
     (collData (x (toBytes 4 0x7F800000) (toBytes 4 0xFF800000)) d = (toBytes 4 0x7FC00000, 32))) := by decide +kernel
/-- R301: an all-reduce of two members. -/
theorem test_collective : (inNext (exec (.collectiveComplete 0) (ringWith [(2, slot true)] 1 ownSrc (collDescOf 1) [] 0x22222222))
    fun t => (tgetN 0 0x200 8 t.dram.bytes, ((t.ctx 0).coll 2).st)) = some ([12, 0, 0, 0, 14, 0, 0, 0], 2) := by decide +kernel
/-- R300, R304: another member's error ends a collective that has begun, with its CODE, and DST is not written. -/
theorem test_collective_error_there : (inNext (exec (.collectiveComplete 0)
      (ringWith [(2, slot true)] 1 ownSrc (collDescOf 1) [(1, 2)] 0x22222222)) fun t =>
    (((t.ctx 0).coll 2).status, ((t.ctx 0).coll 2).st, t.dram.bytes.length)) = some (0x10203, 3, 2) := by decide +kernel
/-- R300, R304: a SEQ that repeats ends with CODE 2, at both members. -/
theorem test_collective_repeated : (inNext (exec (.collectiveStart 0) (ringState [(2, slot false)] 2)) fun t =>
    (((t.ctx 0).coll 2).status, (t.ring 0).errs, t.out.map fun o => o.dst)) = some (0x10203, [(2, 2)], [0, 0]) := by decide +kernel

/-- A ROUTE of one token with expert 0 as first and second choice, at destination 0, of one row; send list at row 8. -/
def routeSpad : List (Nat × Nat × Nat) :=
  [(0, 2, 1), (2, 1, 1), (3, 1, 1), (4, 2, 1), (6, 2, 4), (8, 2, 5), (10, 2, 6), (12, 2, 7), (14, 2, 8), (16, 1, 1)]
def routeJobOf (peer : Nat) (phase : RoutePhase) (es : List RouteEntry) : RouteJob :=
  { num := 0, tr := 1, trow := 4, lrow := 8, lrpd := 1, seqb := 0, toks := [(0, 0, 0, 0)], map := [(0, 0)], dests := [(peer, 0)], tok := 0,
    rank := 0, phase := phase, entries := es, granted := 0, decd := [], waits := [] }
def routeState (j : RouteJob) (x : Expert) : State := { withDram (at0 { job := some j }) [] with experts := [(0, x)] }
theorem witness_RouteInstructions :
    ((withSpad (at0 {}) routeSpad).flush.routeFault 0 = none) ∧ NoAcquire (withSpad (at0 {}) routeSpad) ∧
    ((31 : BitVec 10).toNat = 16 + 15 ∧ 15 < 16 ∧ 256 ≤ (256 : BitVec 10).toNat ∧ (511 : BitVec 10).toNat < 512 ∧
      512 ≤ (512 : BitVec 10).toNat) := by
  unfold NoAcquire
  decide +kernel
theorem witness_RouteEvents :
    (let j := routeJobOf 0 .ask []
     let s := routeState j { cap := 4, erows := 2, count := 3 }
     let x := s.expert j.place.2
     (s.ctx 0).job = some j ∧ j.phase = .ask ∧ j.module j.place.1 = s.ownMod ∧ x.count < x.cap ∧ x.erows = j.tr + 1) ∧
    (let x : Expert := { cap := 4, erows := 2, count := 4 }
     ¬ (x.count < x.cap ∧ x.erows = 1 + 1)) ∧
    (let j := routeJobOf 1 .ask []
     let s : State := { routeState j {} with torus := { dims := 0x10102, portstat := 0x22222222 } }
     j.module j.place.1 ≠ s.ownMod ∧ s.reachable (j.module j.place.1) = true ∧
       (routeState j {}).reachable (j.module j.place.1) = false) ∧
    (let j := routeJobOf 0 (.answered (some 3)) []
     (routeState j {}).ctx 0 = { job := some j } ∧ j.phase = .answered (some 3) ∧ j.module j.place.1 = (routeState j {}).ownMod) ∧
    (routeJobOf 0 (.answered none) []).phase = .answered none ∧
    (let e : RouteEntry := { id := 0, d := 0, x := 0, c := 3, data := List.replicate 512 0 }
     let j := routeJobOf 0 .ended [e]
     let own := LinkMsg.entry 0 0 0 0 0 3 0 (List.replicate 512 0)
     let s : State := { routeState j { rbase := 0x100, erows := 2 } with inbox := [own] }
     j.entries[0]? = some e ∧ j.module e.d = s.ownMod ∧ s.inbox.find? (s.entryFrom s.ownMod) = some own ∧ j.num = 0 ∧
       (routeState j {}).dieUp 1 = false ∧
       s.writeFault 8 ((s.expert e.x).rbase + 256 * (s.expert e.x).erows * e.c) e.data.length = none ∧ s.migHeld = [] ∧
       pagesOf ((s.expert e.x).rbase + 256 * (s.expert e.x).erows * e.c) e.data.length = [0] ∧
       (∀ mo ∈ [[], [0]], ({ s with migOpen := mo } : State).pageMig 8 0 = mo.contains 0) ∧
       (routeState j { rbase := 2 ^ 40, erows := 2 }).writeFault 8 (2 ^ 40 + 256 * 2 * 3) 512 ≠ none) ∧
    (let j := routeJobOf 0 .ended []
     j.phase = .ended ∧ (0 : BitVec 4).toNat < j.dests.length ∧ (0 : BitVec 4).toNat ∉ j.decd ∧
       (∀ e ∈ j.entries, e.d ≠ (0 : BitVec 4).toNat)) ∧
    (routeJobOf 0 .ended []).taskOf 0 = 0 ∧ ({ routeJobOf 0 .ended [] with dests := [(0, 65536)] } : RouteJob).taskOf 0 ≠ 0 ∧
    (let j := { routeJobOf 0 .ended [] with decd := [0], waits := [0] }
     let s : State := { routeState j {} with inbox := [.decAck 0 0 0] }
     (∀ i, i < j.dests.length → i ∈ j.decd) ∧ (∀ i ∈ j.waits, LinkMsg.decAck 0 j.num i ∈ s.inbox) ∧
       ∀ i ∈ j.waits, LinkMsg.decAck 0 j.num i ∉ (routeState j {}).inbox) ∧
    (let m : DecMsg := { src := 0, id := 0, low := false, early := false, n := 1, ack := some (0, 0, 0, 0) }
     let s := dispState [] m
     s.dieUp 0 = true ∧ (s.die 0).decs = [m] ∧ m.ack = some (s.ownMod, 0, 0, 0)) := by decide +kernel
theorem witness_RouteEvents_2 : let s := routeState (routeJobOf 0 .ended []) {}
    (s.core (keyCore 0)).evaled ≠ some (s.clk, keyCtx 0) ∧
      (({ s with cores := [(0, { evaled := some (0, 0) })] } : State).core (keyCore 0)).evaled = some (s.clk, keyCtx 0) := by
  decide +kernel
/-- R309: a ROUTE completes when its dispatcher has taken the decrement, and not before. -/
theorem test_route_complete : let j := { routeJobOf 0 .ended [] with decd := [0], waits := [0] }
    (inNext (exec (.routeComplete 0) { routeState j {} with inbox := [.decAck 0 0 0] }) fun t =>
      ((t.ctx 0).route.done, (t.ctx 0).evt)) = some (true, true) ∧
    (inNext (exec (.routeComplete 0) (routeState j {})) fun t => (t.ctx 0).evt) = none := by decide +kernel
/-- R308: the last entry of an expert is granted and counted, and the next reservation refused. -/
theorem test_reservation : (inNext (exec (.routeReservation 0) (routeState (routeJobOf 0 .ask []) { cap := 4, erows := 2, count := 3 }))
      fun t => (((t.ctx 0).job.map (·.phase)), (t.expert 0).count)) = some (some (.answered (some 3)), 4) ∧
    (inNext (exec (.routeReservation 0) (routeState (routeJobOf 0 .ask []) { cap := 4, erows := 2, count := 4 }))
      fun t => (((t.ctx 0).job.map (·.phase)), (t.expert 0).count)) = some (some (.answered none), 4) := by decide +kernel
theorem witness_TorusConfiguration :
    (let T : Torus := {}
     T.porten = 0 ∧ torusOk (0x101010 : Word).toNat T.coord.toNat = true ∧ torusOk T.dims.toNat (0 : Word).toNat = true ∧
       torusOk (0x101011 : Word).toNat T.coord.toNat = false ∧ torusOk T.dims.toNat (1 : Word).toNat = false) ∧
    (let T : Torus := { porten := 1, portstat := 1, since := [(0, 5)] }
     T.porten ≠ 0 ∧ T.port 0 = 1 ∧ 1880005 ≤ tget 0 0 T.since + 1880000) ∧
    ({ portstat := 2 } : Torus).port 0 = 2 ∧ ({ w0 := 0 } : Ring).v = false ∧ ({ w0 := 0x100000001 } : Ring).v = true ∧
    ((at0 {}).ringSlots 0 = [] ∧ ({ w0 := 0x100000001 } : Ring).entryOk {} = true) ∧
    (ringState [(2, slot true)] 1).ringSlots 0 ≠ [] ∧
    (let o : OutMsg := { dst := 0, msg := .member 0 0 (collDescOf 1), send := none, via := some 6 }
     let s : State := { ringState [] 1 with out := [o] }
     s.torus.port 6 = 2 ∧ s.outPort o = some 6 ∧ (∀ r, r < 4 → s.ringSlots r = []) ∧ seqPast (s.ring 0).next 1 = false ∧
       ∀ e ∈ (s.ring 0).errs, e.1 ≠ (collDescOf 1).seq) ∧
    (let s := ringState [(2, slot true)] 1
     s.torus.port 6 = 2 ∧ s.out = [] ∧ s.ringSlots 0 = [(0, 2, collDescOf 1)] ∧ (∀ r, r < 4 → r ≠ 0 → s.ringSlots r = []) ∧
       ((s.ctx 0).coll 2).begun = true ∧ (s.ring 0).n ≠ 1 ∧ (∃ e ∈ (s.ring 0).sides, e.2 = 6) ∧
       (∀ e ∈ (s.ring 0).errs, e.1 ≠ (s.ring 0).next) ∧ (collDescOf 1).seq = (s.ring 0).next ∧
       (s.core (keyCore 0)).evaled ≠ some (s.clk, keyCtx 0)) ∧
    (∀ y ∈ [({ w0 := 0x100000000 } : Ring), { w0 := 0x100001001 }, { w0 := 0x100010001 }, { w0 := 0x100000002, w1 := 0 },
        { w0 := 0x100000001, w1 := 1 }, { w0 := 0x100000001, w1 := 0x10000 }],
      y.v = true ∧ (y.n = 0 ∨ 4096 < y.n ∨ y.n ≤ y.rank ∨ Nat.gcd y.mul y.n ≠ 1 ∨
        ({} : Torus).inside (BitVec.ofNat 12 y.w1.toNat) = false ∨
        ({} : Torus).inside (BitVec.ofNat 12 (y.w1.toNat / 2 ^ 16)) = false)) := by decide +kernel
/-- R289, R304: a descriptor that a failing Bangle port loses leaves its collective unreachable. -/
theorem test_ring_lost : (inNext (exec (.portFailure 6) { ringState [] 1 with
      out := [{ dst := 0, msg := .member 0 0 (collDescOf 1), send := none, via := some 6 }] }) fun t =>
    ((t.ring 0).errs, t.out.map (·.msg))) = some ([(1, 4)], []) := by decide +kernel
/-- R304: a collective under way whose port fails ends with CODE 4, once its completion takes place. -/
theorem test_ring_cut : (inNext (exec (.portFailure 6) (ringState [(2, slot true)] 1)) fun t =>
    ((t.ring 0).errs, ((t.ctx 0).coll 2).begun, inNext (exec (.collectiveComplete 0) t) fun u => ((u.ctx 0).coll 2).status)) =
      some ([(1, 4)], true, some 0x10403) := by decide +kernel
/-- R352: dimensions beyond 16 are refused and counted. -/
theorem test_dims : (inNext (exec (.dimsWrite 0x101011) (at0 {})) fun t => (t.torus.dims, t.torus.cfgerr)) = some (0x10101, 1) := by
  decide +kernel
/-- R289: a port comes up within the bound and not past it. -/
theorem test_port : (inNext (exec (.portTrained 0) { at0 {} with clk := 1880000, torus := { porten := 1, portstat := 1 } })
      fun t => t.torus.port 0) = some 2 ∧
    (inNext (exec (.portTrained 0) { at0 {} with clk := 1880001, torus := { porten := 1, portstat := 1 } })
      fun t => t.torus.port 0) = none := by decide +kernel
/-! ## Search -/

/-- A graph descriptor of dimension 16 in FP32 with up to 4 neighbours, its lists as given; a query packet. -/
def graphFields (l : List (Nat × Nat × Nat)) : List (Nat × Nat × Nat) := [(0, 2, 16), (4, 2, 4), (8, 4, 128)] ++ l
def packetFields : List (Nat × Nat × Nat) := [(1, 1, 5), (2, 1, 1), (3, 1, 1), (4, 2, 1), (6, 2, 1), (8, 4, 1), (12, 4, 2)]
def rowOf (l : List (Nat × Nat × Nat)) : Row := (withSpad (at0 {}) l).row 0 0
/-- The query of that packet on graph 0, and the graph. -/
def queryFor (g : Option Nat) : Query := queryOf 0 0 (rowOf packetFields) g
def graph0 : Graph := graphOf (rowOf (graphFields [])) []
def searchState (q : Query) (g : Option Graph) : State :=
  { at0 { qh := [(5, 1)] } with searches := [q], graphs := [(0, g)], funcready := 2 ^ 16 }
theorem witness_SearchInstructions :
    (let s := (withSpad (at0 (scalars [(3, 63), (4, 64)])) (graphFields [])).flush
     NoAcquire s ∧ s.rowFault 0 0 256 = none ∧ graphOk (s.row s.myCore 0) = true ∧ (s.rx 3).toNat < 64 ∧ 64 ≤ (s.rx 4).toNat) ∧
    (let s := (at0 {}).flush
     s.rowFault 0 0 256 = none ∧ graphOk (s.row s.myCore 0) = false ∧ tget 0 5 s.me.qh = 0 ∧ NoAcquire (at0 {})) ∧
    (let s := (withSpad (at0 {}) packetFields).flush
     NoAcquire s ∧ s.sqsubFault 0 = none ∧ (s.row s.myCore 0).toNat / 2 ^ 8 % 2 ^ 4 = 5 ∧ tget 0 5 s.me.qh = 0) ∧
    (let s := (withSpad (at0 { qh := [(5, 2)], qres := [(5, some 7)] }) packetFields).flush
     s.sqsubFault 0 = none ∧ tget 0 5 s.me.qh ≠ 0 ∧ tget 0 5 s.me.qh = 2 ∧ tget none 5 s.me.qres = some 7) ∧
    (∀ q ∈ [queryFor none, (queryFor none).finish 4, { queryFor none with running := true }],
      let s := searchState q none
      tget 0 5 s.me.qh = 1 ∧ s.searches.find? (fun q => q.key == s.iss.key && q.qh == 5 && !q.mute) = some q) := by
  unfold NoAcquire
  decide +kernel
/-- R321: a submission takes its handle. -/
theorem test_sqsub : (inNext (exec (.sqsub 1 3 0) (withSpad (at0 {}) packetFields)) fun t =>
    ((t.ctx 0).qh, t.searches.length, (t.ctx 0).xr 1)) = some ([(5, 1)], 1, 0) := by decide +kernel
/-- A graph with a region list of stack 0 that names a region off its alignment. -/
def installState (l : List (Nat × Nat × Nat)) (gs : Tab (Option Graph)) : State :=
  { withDram (at0 {}) [(0x600, 8, 0x780), (0x608, 4, 1)] with
    graphs := gs, installs := [{ id := 0, key := 0, xd := 4, row := rowOf (graphFields l), held := false }] }
theorem witness_SearchEvents_1 :
    (let s := installState [] [(0, some graph0)]
     let r : GraphReq := { id := 0, key := 0, xd := 4, row := rowOf (graphFields []), held := false }
     s.installs.find? (fun q => q.key == 0 && !q.held) = some r ∧ s.graphStacks r.row (List.range 8) = .ok [] ∧
       1 < 64 ∧ tget none 1 s.graphs = none ∧ (∀ j, j < 1 → tget none j s.graphs ≠ none)) ∧
    (∀ j, j < 64 → tget none j (((List.range 64).map fun i => (i, some graph0)) : Tab (Option Graph)) ≠ none) ∧
    (let s := installState [(64, 8, 0x600), (72, 4, 1)] []
     s.graphStacks (rowOf (graphFields [(64, 8, 0x600), (72, 4, 1)])) (List.range 8) = .error (0, 0, 0x780)) := by
  refine ⟨⟨?_, ok_of_okIs ?_, ?_⟩, ?_, error_of_errIs ?_⟩ <;> decide +kernel
theorem witness_SearchEvents_2 :
    (let s : State := { searchState (queryFor (some 0)) (some graph0) with removals := [⟨0, 4, 0⟩, ⟨1, 4, 3⟩] }
     s.removals.find? (fun q => q.key == 0) = some ⟨0, 4, 0⟩ ∧ tget none 0 s.graphs = some graph0 ∧ graph0.rm = none ∧
       s.removals.find? (fun q => q.key == 1) = some ⟨1, 4, 3⟩ ∧ tget none 3 s.graphs = none) ∧
    (let s := searchState ((queryFor (some 0)).finish 0) (some { graph0 with rm := some (0, 4) })
     tget none (0 : BitVec 6).toNat s.graphs = some { graph0 with rm := some (0, 4) } ∧
       ∀ q ∈ s.searches, q.graph = some (0 : BitVec 6).toNat → q.res ≠ none) ∧
    (let s := searchState (queryFor none) none
     s.searches.find? (fun q => q.home == (0 : BitVec 3).toNat && !q.running && q.res.isNone) = some (queryFor none) ∧
       s.queryGraph (queryFor none) = none ∧ s.funcready.getLsbD (16 + (queryFor none).home) = true ∧
       State.reset.funcready.getLsbD (16 + (queryFor none).home) = false) ∧
    (∀ q ∈ [{ queryFor (some 0) with running := true, cancel := true }, { queryFor (some 0) with running := true },
        { queryFor (some 0) with running := true, heap := [⟨0, 1, false⟩], rounds := 2 },
        { queryFor (some 0) with running := true, heap := [⟨0, 1, false⟩], rounds := 1 }],
      let s := searchState q (some graph0)
      s.searches.find? (fun y => y.key == 0 && y.qh == q.qh && y.running && !y.held) = some q ∧ q.qh < 16 ∧
        s.queryGraph q = some graph0 ∧ q.maxr = 2 ∧ 0 < q.w ∧ s.funcready.getLsbD (16 + q.home) = true ∧ (q.cancel = true ∨ (∀ c ∈ q.heap, c.expanded = true) ∨
          ∃ c ∈ q.heap, c.expanded = false)) ∧
    (let q := (queryFor (some 0)).finish 0
     let l := resultBytes (queryFor (some 0)) 0 [] 0
     let s := searchState q (some graph0)
     s.searches.find? (fun q => q.key == 0) = some q ∧ q.res = some l ∧ q.mute = false ∧
       (q.rrow + l.length / 256) * 256 ≤ s.extent (keyCore 0) ∧ l.length % 256 = 0 ∧
       (s.core (keyCore 0)).evaled ≠ some (s.clk, keyCtx 0) ∧
       s.searches.find? (fun q => q.key == 0 && (!q.mute || q.res.isSome)) = some q ∧
       let s : State := { s with cores := [(0, { evaled := some (s.clk, 0) })] }
       (s.core (keyCore 0)).evaled = some (s.clk, keyCtx 0)) := by decide +kernel
/-- The graph with four nodes at 0x1000, whose vectors are zero and which have no neighbours; a query on it that runs. -/
def graphN : Graph := { graph0 with parts := [(0, [{ first := 0, nrec := 4, key := 0x1000, va := 0x1000 }])] }
def queryN : Query := { queryFor (some 0) with v := 2, l := 1, vec := List.replicate 16 0x3F800000 }
theorem witness_SearchEvents_3 :
    (∀ row ∈ [0, 2000], let q := { queryFor (some 0) with qrow := row }
      let s := searchState q (some graphN)
      s.searches.find? (fun q => q.home == (0 : BitVec 3).toNat && !q.running && q.res.isNone) = some q ∧
        s.queryGraph q = some graphN ∧ s.funcready.getLsbD (16 + q.home) = true ∧
        (decide (s.extent (keyCore q.key) < (q.qrow + (graphN.dim * graphBytes graphN.ty + 255) / 256) * 256)) = (row == 2000) ∧
        s.poolUsed q.home + 256 * ((8 * q.v + 16 * q.l + graphN.dim * graphBytes graphN.ty + 1024 + 255) / 256) ≤ 14 * 2 ^ 20) ∧
    (searchState (queryFor (some 0)) (some graphN)).rowsData 0 0 1 = some (List.replicate 256 0) ∧
    graphN.findRegion 4 = none ∧ graphN.findRegion 1 = some ({ first := 0, nrec := 4, key := 0x1000, va := 0x1000 }, 128) ∧
    (∃ y ∈ [(1, ([] : List Nat))], y.1 = 1) ∧ { queryN with vis := [(1, []), (2, [])] }.vis.length = queryN.v ∧
    (let s := searchState queryN (some graphN)
     s.funcready.getLsbD (16 + 1 / 2 ^ 29) = true ∧ State.reset.funcready.getLsbD (16 + 1 / 2 ^ 29) = false ∧
       okIs (s.readNode graphN { first := 0, nrec := 4, key := 0x1000, va := 0x1000 } 128) (List.replicate 16 0, [], 0) = true ∧
       (∀ y ∈ queryN.vis, y.1 ≠ 1) ∧ queryN.vis.length ≠ queryN.v ∧ queryN.heap.length < queryN.l) ∧
    (let d := dist graphN.metric graphN.dim queryN.vec (List.replicate 16 0)
     (∀ c ∈ [(⟨0, 0, false⟩ : Cand), ⟨0x7F000000, 0, false⟩], queryN.l ≤ [c].length ∧ [c].getLast? = some c ∧
       [c].Pairwise (fun a b => b.before a = false) ∧ (⟨d, 1, false⟩ : Cand).before c = (c.d != 0))) ∧
    ((queryFor none).flags < 256 ∧ (queryFor none).flags % 16 = 0 ∧ (queryFor none).rounds < 2 ^ 32 ∧ (queryFor none).k ≤ 512 ∧
      (queryFor none).seq < 2 ^ 32) := by decide +kernel
/-- R324: the distance from the ones of 16 dimensions to zero is 16, and a VISIT keeps it. -/
theorem test_visit : let r := (searchState queryN (some graphN)).visit graphN queryN 1
    (r.1, r.2.heap, r.2.dc) = (.ok, [⟨0x41800000, 1, false⟩], 1) := by decide +kernel
/-- R331: a cancelled query ends with code 3 at its next round, and an ended one becomes visible. -/
theorem test_query : (inNext (exec (.queryRound 0 5) (searchState { queryFor (some 0) with running := true, cancel := true }
      (some graph0))) fun t => t.searches.map fun q => q.res.map fun l => l.getD 0 0) = some [some 3] ∧
    (inNext (exec (.queryVisible 0) (searchState ((queryFor (some 0)).finish 0) (some graph0))) fun t =>
      ((t.ctx 0).qh, (t.ctx 0).evt, t.searches.length)) = some ([(5, 2)], true, 0) := by decide +kernel

/-! ## Traps, system control and the platform -/

/-- A dictionary of one entry, IDENT 5, at 0x200. -/
def dictState (c : Ctx) : State := withDram (at0 c) [(0x200, 8, 5), (0x208, 2, 1), (0x240, 8, 7)]
theorem witness_SystemInstructions_1 :
    (let s := at0 { share := { held := true } }
     s.me.sys = true ∧ s.me.stop = .none ∧ s.me.tr.cause.getLsbD 10 = false ∧ s.me.share.held = true ∧ s.me.share.ending = false) ∧
    ((at0 {}).me.share.held = false ∧ (at0 {}).me.loaded = false) ∧
    (let c : Ctx := { tr := { cause := 0x400 }, held := some (.probe 1), share := { held := true } }
     let s := at0 { c with probe := { nslot := 2, slots := [(1, { st := .filling, held := true })] } }
     s.me.sys = true ∧ s.me.tr.cause.getLsbD 10 = true ∧ s.me.held = some (.probe 1) ∧ (s.me.probe.slot 1).held = true) ∧
    (let s := dictState {}
     s.dictHeader 0 0x200 = .ok (5, 1) ∧ (∀ w ∈ (s.core s.myCore).dict, w.ident ≠ 5) ∧ s.fits 0 5 1 = true ∧
       s.dictEntries 0 0x200 1 = .ok [7]) ∧
    (∃ f : Nat × Nat, (dictState {}).loadWindow 0 0x240 = .error f ∧ f.1 < 256) := by
  refine ⟨?_, ?_, ?_, ⟨ok_of_okIs ?_, ?_, ?_, ok_of_okIs ?_⟩, ⟨(10, 0), ?_, ?_⟩⟩
  case refine_8 =>
    have h : ∀ e : Except (Nat × Nat) State, (match e with | .error f => decide (f = (10, 0)) | .ok _ => false) = true →
        e = .error (10, 0) := by
      intro e he
      cases e with
      | error f => simpa using he
      | ok _ => simp at he
    exact h _ (by decide +kernel)
  all_goals decide +kernel
/-- Context 0 in a trap handler with a held operation. -/
def heldCtx (o : HeldOp) : Ctx := { tr := { cause := 0x400 }, held := some o, share := { held := true } }
/-- A held operation of each kind, where it is found. -/
theorem witness_SystemInstructions_3 :
    (let s := at0 (heldCtx (.amog 2))
     s.me.sys = true ∧ s.me.stop = .none ∧ s.me.tr.cause.getLsbD 10 = true ∧ s.me.held = some (.amog 2) ∧ s.me.share.held = true ∧
       s.me.share.ending = false) ∧
    ((at0 { heldCtx (.fill 3 1) with streams := [(3, { bound := true, held := some 1 })] }).me.stream 3).held = some 1 ∧
    (let o : MatOp := { id := 3, key := 0, instr := .mswap 1, held := true }
     ((atCore (heldCtx (.matrix 1)) { array := { queues := [(1, [o])] } }).arr 0).queue 1 = [o] ∧ o.held = true) ∧
    (({ at0 (heldCtx (.copy 0 2)) with dies := [(0, { chans := [(2, { st := .held })] })] } : State).chan 0 2).st = .held ∧
    (∀ sc ∈ [true, false],
      let g : Gather := { key := 0, h := 2, scatter := sc, addrs := [], id := 4, held := true }
      ((atCore (heldCtx (.gather 4)) { gathers := [g] }).core 0).gathers.find? (fun g => g.id == 4 && g.held) = some g ∧ g.rows = none) ∧
    (let c := { stashCmdOf .d none with held := true }
     (stashState [] [c] []).stashRx.find? (fun c => c.id == 0 && c.held) = some c) ∧
    (let u : Unstaged := { va := 0x100, mask := 0, data := 0, epoch := 0, why := .fault }
     let s := withDram (at0 { heldCtx (.commit 0x100) with unstaged := [u] }) []
     s.me.unstaged.find? (fun u => u.held && u.va == 0x100) = some u ∧ u.why = .fault ∧ s.migHeld = [] ∧
       s.pte (unitOf 0) 0x100 = some 3 ∧ pteW 3 = true ∧ pteC 3 = false ∧
       s.pageMig (unitOf 0) (0x100 / 2 ^ 21) = false ∧ s.me.stagedCount < 1024) ∧
    (let m : ChSend := { id := 0, key := 0, ch := 5, q := 1, tag := 9, spad := true, addr := 0x100, len := 16, data := none, held := true }
     ({ at0 {} with sends := [m] } : State).sends.find? (fun m => m.ch == 5 && m.q.toNat == 1 && m.held) = some m) ∧
    (let q := { queryFor (some 0) with held := true }
     let s := searchState q (some graph0)
     s.searches.find? (fun q => q.key == 0 && q.qh == 5 && q.held && !q.mute) = some q ∧ s.queryGraph q = some graph0) ∧
    (let r : GraphReq := { id := 6, key := 0, xd := 4, row := 0, held := true }
     ({ at0 {} with installs := [r] } : State).installs.find? (fun q => q.id == 6 && q.held) = some r) := by decide +kernel
/-- R343: ERET.disc of a held SGINST answers 2^64 - 1. -/
theorem test_discard : (inNext (exec .eretDisc { at0 (heldCtx (.sginst 6)) with installs := [{ id := 6, key := 0, xd := 4, row := 0, held := true }] })
    fun t => ((t.ctx 0).replies, t.installs.length, (t.ctx 0).held)) = some ([(4, BitVec.allOnes 64)], 0, none) := by decide +kernel
theorem witness_SystemInstructions_2 :
    (let s := at0 (scalars [(4, 2 ^ 14 - 1), (5, 2 ^ 14)])
     s.me.sys = true ∧ s.migHeld = [] ∧ s.bar2 = [] ∧ (s.rx 4).toNat < 2 ^ 14 ∧ 2 ^ 14 ≤ (s.rx 5).toNat) ∧
    (at0 { sys := false }).me.sys = false := by decide +kernel
/-- R338, R339: TRAP saves the next PC, and ERET goes back to it. -/
theorem test_trap : (inNext (exec (.trap 5) (at0 { sys := false, pc := 10 })) fun t =>
      ((t.ctx 0).tr.epc, (t.ctx 0).tr.einfo, (t.ctx 0).pc, (t.ctx 0).sys)) = some (11, 5, 16 * 19, true) ∧
    (inNext (exec .eret (at0 { tr := { epc := 11 }, share := { held := true } })) fun t => ((t.ctx 0).pc, (t.ctx 0).sys)) =
      some (11, false) := by decide +kernel
/-- R345: ERET in user mode takes the protection trap. -/
theorem test_eret_user : (inNext (exec .eret (at0 { sys := false })) fun t => (t.ctx 0).tr.cause) = some 8 := by decide +kernel
theorem witness_ContextSaveAndLoad_1 :
    (let v : Save := { ea := 2 ^ 21 - 10496, at_ := 0, step := 2, pages := [3], deadline := none }
     let s := at0 { save := some v }
     s.me.sys = true ∧ s.me.save = some v ∧ v.step = 2 ∧ s.me.pend = [] ∧ s.me.held = none ∧
       s.me.tr.cause.getLsbD 10 = false ∧ s.rateHolds 0 v = false ∧ v.pages = [3] ∧ pteMig 3 = false ∧ v.ea % 256 = 0 ∧
       v.ea % 2 ^ 21 + 10496 ≤ 2 ^ 21 ∧ ∀ i, i < 41 → s.blkLost (pteByte 3 v.ea / 256 + i) = false) ∧
    (let s := at0 { save := some { ea := 0x100, at_ := 0, step := 0, pages := [3], deadline := none }, vwait := [5] }
     s.me.sys = true ∧ s.me.pend = [] ∧ (s.me.xwait ≠ [] ∨ s.me.vwait ≠ [])) ∧
    (let s := withDram (at0 (scalars [(4, 2 ^ 21 - 256), (5, 255)])) []
     s.me.sys = true ∧ s.me.save = none ∧ (s.rx 4).toNat % 256 = 0 ∧ s.me.held = none ∧ s.me.pend = [] ∧ s.me.stop = .none ∧
       s.writeFault (unitOf 0) (s.rx 4).toNat 10496 = none ∧ (s.rx 5).toNat % 256 ≠ 0) ∧
    (at0 (heldCtx (.amog 2))).me.held ≠ none ∧ (at0 {}).me.tr.cause.getLsbD 10 = false ∧
    (let c : Ctx := { qh := [(5, 1)], streams := [(3, { bound := true })], window := some (5, 0x200) }
     (∀ e ∈ c.qh, e.2 < 4) ∧ (tget {} 3 c.streams).bound = true ∧ (tget {} 4 c.streams).bound = false) := by decide +kernel
/-- A save past its image of a context with a window or with a share whose task has mode 0 or 2; its control block's page is
mapped. -/
def saveEnd (c : Ctx) (mode : Nat) : State :=
  let v : Save := { ea := 0x200, at_ := 0, step := 3, pages := [3], deadline := none }
  taskState { c with sys := true, save := some v }
    { running 2 [entry0] with job := some { jobCard with mode := mode }, shares := 2 }
theorem witness_ContextSaveAndLoad_3 :
    (∀ w ∈ [none, some (5, 0x200)],
      let s := saveEnd { window := w } 0
      s.me.sys = true ∧ (∃ v, s.me.save = some v ∧ v.step = 3) ∧ s.me.pend = [] ∧ s.me.share.held = false ∧ s.me.window = w) ∧
    (∀ m ∈ [0, 2],
      let s := saveEnd (shareCtx chunk0) m
      let x : Task := { running 2 [entry0] with job := some { jobCard with mode := m }, shares := 2 }
      let owner := jobCard.jcb + 64 + 16 * entry0.idx + 12
      s.me.share.held = true ∧ s.me.share.chunk = chunk0 ∧ s.findTask s.me.share.task = some (0, 0, x) ∧ x.st = .running ∧
        x.abort = false ∧ x.open_.find? (fun y => y.idx == 0) = some entry0 ∧ jobCard.jcb % 64 = 0 ∧
        s.writeFault 0 owner 4 = none ∧ (∃ l, s.readVA 0 none owner 4 = .ok l) ∧ s.pte 0 owner = some 3 ∧
        s.blkLost (pteByte 3 owner / 256) = false ∧ s.pageMig 0 (owner / 2 ^ 21) = false ∧ s.migHeld = []) := by
  refine ⟨fun w hw => ?_, fun m hm => ?_⟩
  · have : w = none ∨ w = some (5, 0x200) := by simpa using hw
    rcases this with rfl | rfl <;>
      exact ⟨by decide +kernel, ⟨_, rfl, rfl⟩, by decide +kernel, by decide +kernel, by decide +kernel⟩
  · have : m = 0 ∨ m = 2 := by simpa using hm
    rcases this with rfl | rfl <;>
      exact ⟨by decide +kernel, by decide +kernel, by decide +kernel, by decide +kernel, by decide +kernel, by decide +kernel,
        by decide +kernel, by decide +kernel, ok_of_isOk (by decide +kernel), by decide +kernel, by decide +kernel⟩
/-- R279: a saved share leaves its chunk open without an owner; R42: a register that waits keeps the save waiting. -/
theorem test_save_share : (inNext (exec (.ctxsave 0 0 false false) (saveEnd (shareCtx chunk0) 0)) fun t =>
      ((t.taskAt 0 0).open_.map (·.owner), (t.taskAt 0 0).shares, tgetN 0 0x84C 4 t.dram.bytes, (t.ctx 0).run)) =
      some ([none], 1, [0, 0, 0, 0x80], .idle) ∧
    (let v : Save := { ea := 0x100, at_ := 0, step := 0, pages := [3], deadline := none }
     (inNext (exec (.ctxsave 0 0 false false) (at0 { vwait := [5], save := some v })) fun t => (t.ctx 0).save.map (·.step)) =
       some (some 0)) := by decide +kernel
/-- R346: where SR_EPC, the handles of queries and x5 stand in the image. -/
theorem test_image : let c : Ctx := { regs := { x := [(5, 0xABCD)] }, tr := { epc := 0x1234 }, qh := [(1, 2)] }
    ((c.image.drop (8192 + 40)).take 2, (c.image.drop (256 * 35 + 160)).take 2, c.image.getD (256 * 35 + 216) 0) =
      ([0xCD, 0xAB], [0x34, 0x12], 8) := by decide +kernel
/-- R346: CTXSAVE.disc discards a held operation. -/
theorem test_ctxsave_disc : (inNext (exec (.ctxsave 4 0 true false)
      (withDram (at0 { heldCtx (.amog 2) with regs := { x := [(4, 2 ^ 21 - 256)] } }) [])) fun t =>
    ((t.ctx 0).held, (t.ctx 0).save.isSome)) = some (none, true) := by decide +kernel
/-- An image of zeros, in the last block of a page and the next page. -/
theorem witness_ContextSaveAndLoad_2 :
    let s := withDram (at0 (scalars [(4, 2 ^ 21 - 256)])) []
    s.me.sys = true ∧ s.ctxloadFault (s.rx 4) = none ∧ s.me.share.held = false ∧
      ∃ l, s.readVA (unitOf 0) none (s.rx 4).toNat 10496 = .ok l :=
  ⟨by decide +kernel, by decide +kernel, by decide +kernel, ok_of_isOk (by decide +kernel)⟩

/-- A context in a state of its own, current on its core. -/
def curState (c : Ctx) : State := atCore c { cur := some 0 }
theorem witness_IssueEvents_1 :
    (let s := withDram (at0 { run := .fetchWait 1 }) [(0x100, 8, 7)]
     (s.ctx 0).run = .fetchWait 1 ∧ s.readVA (unitOf 0) none (256 * 1) 256 = .ok (toBytes 256 7, false)) ∧
    (let s := at0 { run := .fetchWait 1 }
     s.readVA (unitOf 0) none (256 * 1) 256 = .error (7, 256)) ∧
    (let s : State := { at0 { run := .parked [.event 5], evt := true, wfeSys := some (0, 3) } with clk := 8 }
     (s.ctx 0).run = .parked [.event 5] ∧ (∀ y ∈ (s.core 0).was, y.1 ≠ s.clk) ∧
       (∃ c ∈ [ParkCond.event 5], s.condClear 0 c = true) ∧
       (s.ctx 0).wfeRec = some (0, 3) ∧ (5 : BitVec 32) ≠ 0 ∧ 3 + (5 : BitVec 32).toNat ≤ s.clk) ∧
    (let s := atCore { run := .parked [.event 5], evt := true } { was := some (0, 0, 2) }
     (s.ctx 0).run = .parked [.event 5] ∧ (s.core 0).was = some (s.clk, keyCtx 0, 2) ∧ (ParkCond.event 5).early = true ∧
       s.condClear 0 (.event 5) = true) ∧
    (let s := handleState { run := .parked [.handleFull 2] } { st := .full } {}
     let s := s.mapCore 0 fun n => { n with was := some (0, 0, 2) }
     (s.core 0).was = some (s.clk, keyCtx 0, 2) ∧ (ParkCond.handleFull 2).early = true ∧
       s.condClear 0 (.handleFull 2) = true) := by
  refine ⟨⟨?_, ok_of_okIs ?_⟩, error_of_errIs ?_, ?_⟩ <;> decide +kernel
theorem witness_IssueEvents_2 :
    (let f : PendFault := { info := { code := 255 }, srce := 3, held := none, clk := 4 }
     ∀ r ∈ [RunState.parked [], .ready],
       let s := curState { run := r, sys := false, pend := [f] }
       (s.ctx 0).run = r ∧ (s.core 0).cur = some (keyCtx 0) ∧ (s.ctx 0).waking = false ∧ (s.ctx 0).sys = false ∧ (s.ctx 0).pend ≠ [] ∧
         (s.ctx 0).trapDue s.clk = true ∧ ∀ g ∈ (s.ctx 0).pend, g.info.code < 256) ∧
    (let s := curState { run := .ready, sys := false, stopTrap := true }
     (s.ctx 0).run = .ready ∧ (s.core 0).cur = some (keyCtx 0) ∧ (s.ctx 0).waking = false ∧ (s.ctx 0).sys = false ∧
       (s.ctx 0).stopDue = true ∧ (s.ctx 0).pend = [] ∧ (s.ctx 0).overrunDue s.clk = false) ∧
    (({ stop := .running } : Ctx).stopDue = true ∧
      ({ stop := .running, streams := [(0, { bound := true })] } : Ctx).stopDue = false) ∧
    (∀ c ∈ [({} : Ctx), { share := { held := true }, stop := .requested }, { share := { held := true }, sys := false }],
      let s : State := { at0 c with stops := [⟨1, 4, 0⟩] }
      s.stops[0]? = some ⟨1, 4, 0⟩ ∧ ((s.ctx 0).share.held = false ∨ (s.ctx 0).stop ≠ .none ∨ (s.ctx 0).stop = .none)) ∧
    (let s : State := { at0 {} with clk := 9, rates := [(0, .deferred [] 9 4 1), (1, .retraining 9 4 1)] }
     tget .idle (0 : BitVec 3).toNat s.rates = .deferred [] 9 4 1 ∧ tget .idle (1 : BitVec 3).toNat s.rates = .retraining 9 4 1 ∧
       9 ≤ s.clk) := by decide +kernel
/-- R341: a pending fault is taken with ASYNC set at the PC. -/
theorem test_delivery :
    (let f : PendFault := { info := { code := 14 }, srce := 3, held := none, clk := 4 }
     let s := curState { run := .ready, sys := false, pc := 10, pend := [f] }
     (inNext (exec (.engineFaultDelivery 0) s) fun t => ((t.ctx 0).tr.cause, (t.ctx 0).tr.epc)) = some (14 + 256, 10)) := by
  decide +kernel
theorem witness_Platform :
    (let s := at0 {}
     s.clk % 940 = 0 ∧ s.governed ≠ some s.clk ∧ (64 : BitVec 7).toNat ≤ 64 ∧ NorlysCtl.stkrate ∉ s.norlys ∧
       NorlysCtl.pcap ∉ s.norlys ∧ 600 ≤ (600 : Word).toNat ∧ (1800 : Word).toNat ≤ 1800 ∧ ¬ 600 ≤ (599 : Word).toNat ∧
       (s.queue (3 : BitVec 7).toNat).st = 3 ∧ 65536 % 2 ^ 17 = 2 ^ (4 + 12) ∧ (∀ i, i < 13 → 17 ≠ 2 ^ (4 + i)) ∧ 8 ≤ (27 : BitVec 6).toNat ∧ (27 : BitVec 6).toNat < 28 ∧
       s.funcready.getLsbD (27 : BitVec 6).toNat ≠ true ∧ 40 ≤ (43 : BitVec 6).toNat ∧ (43 : BitVec 6).toNat < 44) ∧
    (let s : State := { at0 {} with dies := [(7, { boot := some true })], clReady := (List.range 32).map fun i => (224 + i, true) }
     (s.die ((55 : BitVec 6).toNat - 48)).boot = some true ∧ (s.die (7 : BitVec 6).toNat).boot = some true ∧
       (∀ i, i < 32 → tget false (32 * (7 : BitVec 6).toNat + i) s.clReady = true) ∧
       s.funcready.getLsbD 55 ≠ true ∧ s.funcready.getLsbD 7 ≠ true) ∧
    (∀ size ∈ [16, 32],
      let x : LaunchQ := { st := 3, size := 64, wp := 32 }
      x.st = 3 ∧ size % 2 ^ 17 = size ∧ (size = 2 ^ (4 + 0) ∨ size = 2 ^ (4 + 1)) ∧
        (size = 16 ↔ size < (x.wp - x.rp).toNat) ∧ ({ x with st := 1 } : LaunchQ).st ≠ 3) ∧
    (∀ k, ((at0 {}).ctx k).save = none) ∧
    (let s : State := { at0 {} with norlys := [.stkrate, .pcap] }
     NorlysCtl.stkrate ∈ s.norlys ∧ NorlysCtl.pcap ∈ s.norlys) ∧
    (let s : State := { at0 {} with groupMap := [(64, 1), (128, 1), (192, 1), (256, 1)] }
     (∀ i, i < 64 → (2 : Word).getLsbD i = true →
       ((s.coreGroups (BitVec.ofNat 12 (64 * (0 : BitVec 6).toNat + i))).filter (· != (9 : BitVec 8).toNat)).length < 4) ∧
     (1 : Word).getLsbD 0 = true ∧
       4 ≤ ((s.coreGroups (BitVec.ofNat 12 (64 * (0 : BitVec 6).toNat + 0))).filter (· != (9 : BitVec 8).toNat)).length) := by
  have h : ∀ k, ((at0 {}).ctx k).save = none := by
    intro k
    show (tget ({} : Ctx) k.toNat [(0, {})]).save = none
    simp only [tget]
    split <;> rfl
  exact ⟨by decide +kernel, by decide +kernel, by decide +kernel, h, by decide +kernel, by decide +kernel⟩
/-- R273, R353: a size below the distance of a stopped queue's pointers overruns it. -/
theorem test_qsize : (inNext (exec (.registerWrite 0x10008 16) { at0 {} with queues := [(0, { st := 3, size := 64, wp := 32 })] })
    fun t => ((t.queue 0).st, (t.queue 0).rp, (t.queue 0).size)) = some (2, 32, 16) := by decide +kernel
/-- A context with a save that has a deadline, before and past 10 ms; a cluster of a die that is up. -/
theorem witness_Platform_2 :
    (∀ dl ∈ [9400000, 9400001],
      let v : Save := { ea := 0x100, at_ := 0, step := 0, pages := [3], deadline := some dl }
      let s := at0 { save := some v }
      (s.ctx 0).save = some v ∧ pteStack 3 ∈ v.onStacks ∧ v.deadline = some dl ∧
        (dl = 9400001 ↔ s.clk + 9400000 < dl) ∧ tget .idle (pteStack 3) s.rates = .idle) ∧
    (let v : Save := { ea := 0x100, at_ := 0, step := 0, pages := [3], deadline := some 500 }
     let s : State := { at0 { save := some v } with clk := 500, rates := [(pteStack 3, .retraining 900 0 1)] }
     (s.ctx 0).save = some v ∧ pteStack 3 ∈ v.onStacks ∧ 500 ≤ s.clk ∧ tget .idle (pteStack 3) s.rates = .retraining 900 0 1) ∧
    (at0 {}).isMeasured 8 0 = false ∧ ({ at0 {} with measured := [(0, 0)] } : State).isMeasured 8 0 = true ∧
    (let s : State := { at0 {} with dies := [(7, { boot := some true })], clReady := [(254, true)] }
     s.powered = true ∧ tget false 255 s.clReady = false ∧ (s.die (255 / 32)).boot = some true ∧ tget false 254 s.clReady = true) ∧
    (600 : Word).toNat = 600 ∧ ¬ ((1801 : Word).toNat ≤ 1800) ∧ NorlysCtl.pcap ∉ (at0 {}).norlys := by decide +kernel
/-- R7, R273: QCTL reads as zero, and a stopped queue shows STATE 3. -/
theorem test_bar0 : ((at0 {}).readBar0 0x10028, (at0 {}).readBar0 0x10020) = (some 0, some 3) := by decide +kernel
/-- R357: a cluster that fails takes its die's bit with it. -/
theorem test_cluster : (inNext (({ at0 {} with clReady := [(33, true)], funcready := 3 } : State).minor (.cluster 33 false)) fun t =>
    (t.funcready, t.clReady)) = some (1, []) := by decide +kernel
/-- R361: a request past the deadline of a save that is still writing retrains the stack at once. -/
theorem test_rate_past : let v : Save := { ea := 0x100, at_ := 0, step := 0, pages := [3], deadline := some 500 }
    (inNext (exec (.stkrateWrite 1) { at0 { save := some v } with clk := 900 }) fun t => (t.rates, t.ctl.ratestat)) =
      some ([(0, .retraining 1410900 900 0)], 2) := by decide +kernel
/-- R359: Norlys reads PSTAT once its controller's firmware has been measured (R358). -/
theorem test_norlys_read : (inNext (({ at0 {} with measured := [(0, 0)], ctl := { pstat := 64 } } : State).minor (.norlysRead .pstat))
      fun t => t.norlysDone) = some [(.pstat, 64)] ∧
    (inNext ((at0 {}).minor (.norlysRead .pstat)) fun t => t.norlysDone) = none := by decide +kernel
/-- R361: two saves with deadlines defer the rate request to the later one. -/
theorem test_rate : let v : Nat → Save := fun dl => { ea := 0x100, at_ := 0, step := 0, pages := [3], deadline := some dl }
    (inNext (exec (.stkrateWrite 1) { at0 {} with ctxs := [(0, { save := some (v 500) }), (1, { save := some (v 900) })] }) fun t =>
      (t.rates, t.ctl.ratestat)) = some ([(0, .deferred [(0, 0), (1, 0)] 900 0 0)], 1) := by decide +kernel
/-- R359: a value below 600 W leaves PCAP, and is held. -/
theorem test_pcap : (inNext (exec (.norlysControlWrite .pcap 599) (at0 {})) fun t => (t.ctl.pcap, t.norlys)) =
    some (1800, [.pcap]) := by decide +kernel
theorem witness_HostAndResets_1 :
    (let s := withDram (at0 {}) [(0x100, 2, 7)]
     s.bar2 = [] ∧ s.readVA 8 none (0x100 : Word).toNat 2 = .ok ([7, 0], false) ∧ ([1] : List Byte) ≠ [] ∧
       (0xFF : Word).toNat % 256 + ([1] : List Byte).length ≤ 256 ∧ s.translate 8 (0xFF : Word).toNat .write = .ok 3 ∧
       s.pageMig 8 ((0xFF : Word).toNat / 2 ^ 21) = false ∧ s.migHeld = [] ∧ s.blkBad (pteByte 3 (0xFF : Word).toNat / 256) = false ∧
       tget false (pteByte 3 (0xFF : Word).toNat / 256) s.dram.dead = false) ∧
    ((at0 {}).readVA 8 none (0x100 : Word).toNat 2 = .error (7, 0x100)) ∧
    (at0 {}).writeFault 8 (0x100 : Word).toNat 2 = some (7, 0x100) ∧
    ({ at0 {} with bar2 := [.read 0 1] } : State).bar2 ≠ [] := by
  refine ⟨⟨?_, ok_of_okIs ?_, ?_, ?_, ok_of_okIs ?_, ?_⟩, error_of_errIs ?_, ?_⟩ <;> decide +kernel
/-- A share dealt to context 0 of a task of `n` shares, with a MODE. -/
def dealtMode (mode n : Nat) : State :=
  { dealtState with
    dies := [(0, { tasks := [(0, { running 2 [entry0] with shares := n, job := some { jobCard with mode := mode } })], running := [0] })]
    ctl := { dealtState.ctl with evctl := 4 } }
theorem witness_HostAndResets_2 :
    (let s : State := { dictState {} with ctl := { sysdict := 0x200 } }
     (s.die 0).boot = none ∧ s.sysImage 0 = some [7]) ∧ (((at0 {}).die 0).boot = none ∧ (at0 {}).sysImage 0 = none) ∧
    (let s := State.reset
     (∀ k, coreDie (keyCore k) = 0 → (s.ctx k).share.held = false ∧ (s.ctx k).share.deal = none) ∧
       ∀ n ∈ s.cores, n.2.msgs = []) ∧
    (let s := at0 {}
     s.torus.porten.getLsbD 0 = false ∧ s.out = [] ∧ (∀ r, r < 4 → s.ringSlots r = []) ∧ s.powered = true) ∧
    ({ porten := 1 } : Torus).porten.getLsbD 0 = true ∧
    (∀ mode ∈ [0, 2], let s := dealtMode mode 2
     (s.ctx 0).share.deal.map (·.task) = some 65536 ∧ (s.findTask 65536).isSome = true ∧ (s.taskAt 0 0).st = .running ∧
       (s.taskAt 0 0).job = some { jobCard with mode := mode } ∧ 1 < (s.taskAt 0 0).shares ∧
       (s.taskAt 0 0).open_.find? (fun w => w.idx == 0) = some entry0) :=
  ⟨by decide +kernel, by decide +kernel, ⟨fun _ _ => ⟨rfl, rfl⟩, fun _ h => absurd h (List.not_mem_nil)⟩, by decide +kernel,
   by decide +kernel, by decide +kernel⟩
/-- R279, R360: a dealt share of a die in reset ends: the chunk stays open without an owner, or MODE NONE aborts the task,
which its last share ends. -/
theorem test_undeal : ((dealtMode 0 2).undeal 0).taskAt 0 0 =
      { (dealtMode 0 2).taskAt 0 0 with shares := 1, open_ := [{ entry0 with owner := none }] } ∧
    (((dealtMode 2 1).undeal 0).taskAt 0 0).st = .free ∧ ((dealtMode 2 1).undeal 0).events.length = 1 := by decide +kernel
/-- R97: the reference of a core whose contexts are idle stands through the reset of its die. -/
theorem test_reset_core : (State.reset.resetCore 0 { ref := 1 }).ref = 1 := by decide +kernel
theorem witness_MeasurementsAndSpdm : 5 ≤ (5 : BitVec 4).toNat ∧ (4 : BitVec 4).toNat < 5 ∧
    (at0 {}).isMeasured 8 (4 : BitVec 4).toNat = false ∧ (at0 {}).powered = true := by decide +kernel
/-- R358: the first stage is extended once. -/
theorem test_measure : (inNext ((at0 {}).minor (.measure 3)) fun t => t.measured.map (·.1)) = some [3] ∧
    (inNext (({ at0 {} with measured := [(3, 0)] } : State).minor (.measure 3)) fun t => t.measured.length) = none := by
  decide +kernel

/-! ## The whole part -/

/-- R362, R339: the state after reset is safe. -/
theorem reset_safe : State.reset.safe = true := by decide +kernel
theorem witness_StepKeepsSafe : State.reset.safe = true ∧ (inNext (step State.reset) fun t => t.clk) = some 1 := by decide +kernel

/-- A user context whose next step issues a bundle of one slot. -/
def issueState (c : Ctx) (x : SlotId) (sl : Slot) : State :=
  ({ State.reset with ctxs := [(0, c)] } : State).placeBundle (oneSlotBundle x (encodeSlot sl))
/-- Its premises: the next step evaluates the bundle, which decodes to the slot. -/
def issues (s : State) (x : SlotId) (sl : Slot) : Prop :=
  s.agenda = [.row 1 (.bundleIssue 0)] ∧ s.powered = true ∧ (s.core 0).nextIssue ≤ s.clk + 1 ∧ (s.core 0).cur = some 0 ∧
    (s.ctx 0).run = .ready ∧ 64 ≤ s.duty ∧ (s.ctx 0).trapDue (s.clk + 1) = false ∧ s.migWaits 0 = false ∧ (s.ctx 0).waking = false ∧
    s.fetch 0 = .bundle (oneSlotBundle x (encodeSlot sl)) 25 ∧ isEvent sl.instr = false ∧
    illegalSlots (slotOrder.map fun y => (y, if y = x then sl else ⟨false, 0, .nop⟩)) = []
/-- The latched state of such a step. -/
def latched (s : State) (x : SlotId) (sl : Slot) : State := s.atIssue 0 0 25 (oneSlotBundle x (encodeSlot sl))

theorem lone_of {b : BitVec 384} {x : SlotId} {sl : Slot}
    (h : slotOrder.all (fun y => okIs (decodeSlot y (slotWord b y)) (if y = x then sl else ⟨false, 0, .nop⟩)) = true) :
    decodeBundle b = loneSlots x sl := by
  unfold decodeBundle loneSlots
  apply List.map_congr_left
  intro y hy
  rw [ok_of_okIs (List.all_eq_true.mp h y hy)]
theorem witness_StepRunsDecoded_decode :
    decodeBundle (oneSlotBundle .A (encodeSlot ⟨false, 0, .addi 1 2 5⟩)) = loneSlots .A ⟨false, 0, .addi 1 2 5⟩ ∧
    decodeBundle (oneSlotBundle .B (encodeSlot ⟨false, 0, .lds 1 3 0⟩)) = loneSlots .B ⟨false, 0, .lds 1 3 0⟩ ∧
    decodeBundle (oneSlotBundle .X (encodeSlot ⟨true, 3, .bwait 1 2 false⟩)) = loneSlots .X ⟨true, 3, .bwait 1 2 false⟩ :=
  ⟨lone_of (by decide +kernel), lone_of (by decide +kernel), lone_of (by decide +kernel)⟩
/-- An instruction that is ready, one whose register waits, and one that is not enabled. -/
theorem witness_StepRunsDecoded_1 :
    (let sl : Slot := ⟨false, 0, .addi 1 2 5⟩
     let s := issueState {} .A sl
     let L := latched s .A sl
     issues s .A sl ∧ slotEnabled sl (s.ctx 0) = true ∧ (s.ctx 0).hazard (portsOf sl.instr) = false ∧
       L.sendStall [(.A, semOf sl.instr)] = none ∧ Ready sl.instr L ∧ Ready sl.instr (L.commitSlots [])) ∧
    (let sl : Slot := ⟨false, 0, .addi 1 2 5⟩
     let s := issueState {} .A sl
     let s := s.mapCtx 0 fun c => { c with xwait := [2] }
     issues s .A sl ∧ slotEnabled sl (s.ctx 0) = true ∧ (s.ctx 0).hazard (portsOf sl.instr) = true) := by
  unfold issues Ready; decide +kernel
/-- One that faults on both states, and one behind an acquire. -/
theorem witness_StepRunsDecoded_2 :
    (let sl : Slot := ⟨false, 0, .lds 1 3 0⟩
     let s := issueState (scalars [(3, 0x60000)]) .B sl
     let L := latched s .B sl
     let M : State := { L with iss := { L.iss with slot := .B } }
     let f : TrapInfo := { code := 9, eaddr := 0x60000 }
     issues s .B sl ∧ slotEnabled sl (s.ctx 0) = true ∧ (s.ctx 0).hazard (portsOf sl.instr) = false ∧
       (semOf sl.instr).hold L = false ∧ (semOf sl.instr).hold M = false ∧
       (semOf sl.instr).fault L = some f ∧ (semOf sl.instr).fault M = some f) ∧
    (let sl : Slot := ⟨false, 0, .ldrow 1 3 0⟩
     let s := (issueState (scalars [(3, 0x60000)]) .X sl).mapCore 0 fun n => { n with msgs := [⟨0, 0, 1, .load 5 0, true, none⟩] }
     issues s .X sl ∧ slotEnabled sl (s.ctx 0) = true ∧ (s.ctx 0).hazard (portsOf sl.instr) = false ∧
       (semOf sl.instr).hold (latched s .X sl) = true) := by
  unfold issues; decide +kernel
/-- One that blocks, and one that is not enabled. -/
theorem witness_StepRunsDecoded_4 :
    (let sl : Slot := ⟨true, 3, .bwait 1 2 false⟩
     let s := issueState {} .X sl
     let L := latched s .X sl
     issues s .X sl ∧ slotEnabled sl (s.ctx 0) = true ∧ (s.ctx 0).hazard (portsOf sl.instr) = false ∧
       (semOf sl.instr).hold L = false ∧ (semOf sl.instr).fault L = none ∧ (semOf sl.instr).instead L = none ∧ (semOf sl.instr).arrive L = L ∧
       (semOf sl.instr).block L ≠ []) ∧
    (let sl : Slot := ⟨true, 3, .bwait 1 2 false⟩
     let s := issueState { regs := { p := [(3, true)] } } .X sl
     issues s .X sl ∧ slotEnabled sl (s.ctx 0) = false) := by
  unfold issues; decide +kernel
/-- A core that may issue, whose context waits for its code. -/
theorem witness_StepRunsDecoded_3 :
    let s := curState { run := .ready }
    (s.core (keyCore 0)).cur = some (keyCtx 0) ∧ (s.core (keyCore 0)).nextIssue ≤ s.clk ∧ (s.ctx 0).run = .ready ∧ 64 ≤ s.duty ∧
      (s.ctx 0).trapDue s.clk = false ∧ s.migWaits 0 = false ∧ (s.ctx 0).waking = false ∧ s.fetch 0 = .wait 0 := by decide +kernel
/-- A step runs the word that the host places. -/
theorem test_fetch_word : (inNext (step (State.reset.withFetchWord 384 (0x0040042000000005 * 2 ^ 320))) fun t => ((t.ctx 0).xr 1, (t.ctx 0).pc)) =
    some (5, 25) := by decide +kernel

/-- A code buffer with one block. -/
def codeState (data : Row) (d : List (BitVec 384)) : State :=
  { atCore {} { code := [{ block := 0, data := data }] } with dies := [(0, { sysDict := d })] }
theorem witness_FetchFindsBundle :
    (let s := codeState 0x500000004FFFF []
     s.codeWord 0 0 = some 0xFFFF ∧ ∀ i, i < 24 → s.codeWord 0 ((0 + 1 + i) % 2 ^ 55) = some (0x500000004 / 2 ^ (16 * i) % 2 ^ 16)) ∧
    (let s := codeState 1 [5, 6]
     s.codeWord 0 0 = some 1 ∧ 1 < 2 ^ 15 ∧ (s.entries 0)[1]? = some 6) ∧
    (let s := codeState 2 [5, 6]
     s.codeWord 0 0 = some 2 ∧ (s.entries 0).length ≤ 2) ∧
    (codeState 0xFFFE []).codeWord 0 0 = some 0xFFFE ∧ (codeState 0xFFFD []).codeWord 0 0 = some 0xFFFD ∧
    (codeState 0x8000 []).codeWord 0 0 = some 0x8000 ∧ (at0 {}).codeWord 0 0 = none ∧ ((at0 {}).ctx 0).fetchFault = none ∧
    (let s := atCore { pc := 127, fetchFault := some (256, 14) } { code := [{ block := 0, data := BitVec.ofNat 2048 (0xFFFF * 2 ^ 2032) }] }
     (s.ctx 0).pc = 127 ∧ s.codeWord 0 127 = some 0xFFFF ∧ s.codeWord 0 ((127 + 1 + 0) % 2 ^ 55) = none ∧
       (s.ctx 0).fetchFault = some (256, 14) ∧ 256 / 256 = (127 + 1 + 0) % 2 ^ 55 / 128) := by
  decide +kernel
/-- R24: a literal whose second block cannot be read traps with the address of its first missing word. -/
theorem test_literal_fault : (match (atCore { pc := 127, fetchFault := some (256, 14) }
      { code := [{ block := 0, data := BitVec.ofNat 2048 (0xFFFF * 2 ^ 2032) }] }).fetch 0 with
    | .trap f => f.code == 14 && f.eaddr == 256 | _ => false) = true := by decide +kernel
theorem witness_ScalarEncodingRoundTrips :
    (Instr.addi 1 2 5).wf = true ∧ (Instr.addi 1 2 5).enc.map (fun e => e.slots) = some [.A, .B] ∧
      decodeSlot .A (encodeSlot ⟨true, 63, .addi 1 2 5⟩) = .ok ⟨true, 63, .addi 1 2 5⟩ := ⟨rfl, rfl, rfl⟩
theorem witness_EncodingRoundTrips :
    (Instr.mmul 1 2 15 7 true true 127).wf = true ∧ (Instr.mmul 1 2 15 7 true true 127).enc.map (fun e => e.slots) = some [.M] :=
  ⟨rfl, rfl⟩

end Sys2Proof.Tests
end

/-! SUPPORT. Bytes of numbers, rows and scratchpads: what a field reads as, and what a write under a mask leaves. -/

namespace Sys2Proof.Machine

/-! ## Bytes of numbers (R3) -/

theorem ofBytes_lt (l : List Byte) : ofBytes l < 2 ^ (8 * l.length) := by
  induction l with
  | nil => exact Nat.one_pos
  | cons b r ih =>
    have hb := b.isLt
    rw [ofBytes, List.length_cons, Nat.mul_succ, Nat.pow_add]
    omega

theorem toNat_ofNat_ofBytes (w : Nat) (l : List Byte) (h : 8 * l.length ≤ w) :
    (BitVec.ofNat w (ofBytes l)).toNat = ofBytes l := by
  rw [BitVec.toNat_ofNat]
  exact Nat.mod_eq_of_lt (Nat.lt_of_lt_of_le (ofBytes_lt l) (Nat.pow_le_pow_right Nat.two_pos h))

theorem getD_toBytes (n v i : Nat) (h : i < n) : (toBytes n v).getD i 0 = BitVec.ofNat 8 (v / 256 ^ i) := by
  induction n generalizing v i with
  | zero => omega
  | succ n ih =>
    cases i with
    | zero => simp [toBytes]
    | succ i =>
      rw [toBytes, List.getD_cons_succ, ih (v / 256) i (by omega), Nat.div_div_eq_div_mul, Nat.pow_succ, Nat.mul_comm]

theorem ofBytes_div (l : List Byte) (i : Nat) : ofBytes l / 256 ^ i = ofBytes (l.drop i) := by
  induction i generalizing l with
  | zero => simp
  | succ i ih =>
    cases l with
    | nil => simp [ofBytes]
    | cons b r =>
      have hb := b.isLt
      rw [List.drop_succ_cons, ← ih r, Nat.pow_succ, Nat.mul_comm, ← Nat.div_div_eq_div_mul]
      congr 1
      simp only [ofBytes]
      omega

theorem ofBytes_mod (l : List Byte) (n : Nat) : ofBytes l % 256 ^ n = ofBytes (l.take n) := by
  induction n generalizing l with
  | zero => simp [ofBytes, Nat.mod_one]
  | succ n ih =>
    cases l with
    | nil => simp [ofBytes]
    | cons b r =>
      have hb := b.isLt
      rw [List.take_succ_cons, ofBytes, ofBytes, ← ih r, Nat.pow_succ', Nat.mod_mul]
      rw [show (b.toNat + 256 * ofBytes r) % 256 = b.toNat by omega,
        show (b.toNat + 256 * ofBytes r) / 256 = ofBytes r by omega]

theorem ofBytes_byte (l : List Byte) (i : Nat) : ofBytes l / 256 ^ i % 256 = (l.getD i 0).toNat := by
  have h := ofBytes_mod (l.drop i) 1
  rw [Nat.pow_one] at h
  rw [ofBytes_div, h]
  cases hd : l.drop i with
  | nil =>
    have : l.length ≤ i := List.drop_eq_nil_iff.1 hd
    simp [ofBytes, this]
  | cons b r =>
    have : l[i]? = some b := by rw [← List.head?_drop, hd]; rfl
    simp [ofBytes, this]

theorem read_eq_ofBytes (m : Memory) (a n : Nat) : m.read a n = ofBytes ((List.range n).map fun i => tget 0 (a + i) m) := by
  unfold Memory.read tgetN
  refine congrArg ofBytes (List.map_congr_left fun i hi => ?_)
  have hi := List.mem_range.1 hi
  exact tget_filter 0 (a + i) (fun k => decide (a ≤ k) && decide (k < a + n)) m
    (Bool.and_eq_true_iff.2 ⟨decide_eq_true (by omega), decide_eq_true (by omega)⟩)

/-! ## Bytes of rows (R3, R177) -/

theorem elem_eight (r : Row) (i : Nat) : elem 8 r i = r.toNat / 256 ^ i % 256 := by
  unfold elem
  exact congrArg (r.toNat / · % 256) (Nat.pow_mul 2 8 i)

theorem testBit_elem_eight (r : Row) (i b : Nat) : (elem 8 r i).testBit b = (decide (b < 8) && r.getLsbD (8 * i + b)) := by
  rw [elem, Nat.testBit_mod_two_pow, Nat.testBit_div_two_pow, BitVec.testBit_toNat, Nat.add_comm b]

theorem testBit_ofBytes (l : List Byte) (i b : Nat) (h : b < 8) :
    (ofBytes l).testBit (8 * i + b) = (l.getD i 0).getLsbD b := by
  rw [← BitVec.testBit_toNat, ← ofBytes_byte, show (256 : Nat) = 2 ^ 8 by rfl, ← Nat.pow_mul, Nat.testBit_mod_two_pow,
    Nat.testBit_div_two_pow, Nat.add_comm b]
  simp [h]

/-- A byte of a merged row is the new one under the mask, and the old one without (R177). -/
theorem elem_mergeRow (old new : Row) (m : Row256) (i : Nat) (h : i < 256) :
    elem 8 (mergeRow old new m) i = if m.getLsbD i then elem 8 new i else elem 8 old i := by
  have hmask : ∀ b, b < 8 → (maskRow m).getLsbD (8 * i + b) = m.getLsbD i := by
    intro b hb
    rw [maskRow, BitVec.getLsbD_ofNat, testBit_ofBytes _ i b hb, decide_eq_true (by omega : 8 * i + b < 2048)]
    cases hm : m.getLsbD i
    · simp [h, -BitVec.getLsbD_eq_getElem, hm]
    · have h255 : (255 : Byte).getLsbD b = true := (by decide : ∀ b, b < 8 → (255 : Byte).getLsbD b = true) b hb
      simpa [h, -BitVec.getLsbD_eq_getElem, hm] using h255
  refine Nat.eq_of_testBit_eq fun b => ?_
  by_cases hb : b < 8
  · rw [testBit_elem_eight, mergeRow, BitVec.getLsbD_or, BitVec.getLsbD_and, BitVec.getLsbD_and, BitVec.getLsbD_not,
      hmask b hb]
    cases hm : m.getLsbD i
    · simp [testBit_elem_eight, hb, show 8 * i + b < 2048 by omega]
    · simp [testBit_elem_eight, hb]
  · split <;> simp [testBit_elem_eight, hb]

/-- The mask of `n` bytes from byte `lo` names those bytes. -/
theorem getLsbD_byteRange (lo n i : Nat) :
    (byteRange lo n).getLsbD i = decide (i < 256 ∧ lo ≤ i ∧ i < lo + n) := by
  rw [byteRange, BitVec.getLsbD_ofNat, Nat.testBit_mul_two_pow, Nat.testBit_two_pow_sub_one, ← Bool.decide_and,
    ← Bool.decide_and, decide_eq_decide]
  omega

/-- Bytes placed in a row stand there from byte `lo` on. -/
theorem elem_placeBytes (lo i : Nat) (bs : List Byte) (h : lo + i < 256) :
    elem 8 (placeBytes lo bs) (lo + i) = (bs.getD i 0).toNat := by
  refine Nat.eq_of_testBit_eq fun b => ?_
  by_cases hb : b < 8
  · rw [testBit_elem_eight, placeBytes, BitVec.getLsbD_ofNat, show (256 : Nat) = 2 ^ 8 by rfl, ← Nat.pow_mul,
      Nat.testBit_mul_two_pow, show 8 * (lo + i) + b - 8 * lo = 8 * i + b by omega, testBit_ofBytes _ _ _ hb,
      BitVec.testBit_toNat]
    simp [hb, show 8 * (lo + i) + b < 2048 by omega, show 8 * lo ≤ 8 * (lo + i) + b by omega]
  · rw [BitVec.testBit_toNat, BitVec.getLsbD_of_ge _ b (Nat.le_of_not_lt hb)]
    simp [testBit_elem_eight, hb]

/-! ## Local rows (R173, R175) -/

/-- A local row, as a number, is that of its 256 bytes. -/
theorem localRow_toNat (s : State) (core row : Nat) : (s.localRow core row).toNat =
    ofBytes ((List.range 256).map fun i => tget 0 (spadKey core row + i) s.spad.bytes) := by
  rw [State.localRow, read_eq_ofBytes]
  refine toNat_ofNat_ofBytes 2048 _ ?_
  simp only [List.length_map, List.length_range, Nat.reduceMul, Nat.le_refl]

theorem elem_eight_localRow (s : State) (core row i : Nat) (h : i < 256) :
    elem 8 (s.localRow core row) i = (tget 0 (spadKey core row + i) s.spad.bytes).toNat := by
  rw [elem_eight, localRow_toNat, ofBytes_byte]
  simp [h]

/-- An 8-byte field of a local row is the number of its bytes (R92). -/
theorem elem_field_localRow (s : State) (core row lo : Nat) (h8 : lo % 8 = 0) (h : lo < 256) :
    elem 64 (s.localRow core row) (lo / 8) =
      ofBytes ((List.range 8).map fun i => tget 0 (spadKey core row + lo + i) s.spad.bytes) := by
  rw [elem, localRow_toNat, show 64 * (lo / 8) = 8 * lo by omega, Nat.pow_mul, show (2 : Nat) ^ 8 = 256 by rfl, ofBytes_div,
    show (2 : Nat) ^ 64 = 256 ^ 8 by rfl, ofBytes_mod]
  refine congrArg ofBytes (List.ext_getElem ?_ fun i _ _ => ?_)
  · simp only [List.length_take, List.length_drop, List.length_map, List.length_range]
    omega
  · simp only [List.getElem_take, List.getElem_drop, List.getElem_map, List.getElem_range, Nat.add_assoc]

/-- Whether an 8-byte field holds an error is that of its bank line (R175). -/
theorem rowBad_field (s : State) (core row lo : Nat) (h8 : lo % 8 = 0) (h : lo < 256) :
    s.rowBad core row lo (lo + 8) = tget false ((spadKey core row + lo) / 16) s.spad.err := by
  have hkey : (spadKey core row + lo) / 16 = spadKey core row / 16 + lo / 16 := by
    unfold spadKey spadSize; omega
  rw [hkey, Bool.eq_iff_iff]
  simp only [State.rowBad, List.any_eq_true, List.mem_range, Bool.and_eq_true, decide_eq_true_eq]
  constructor
  · rintro ⟨i, _, ⟨hlo, hhi⟩, he⟩
    rwa [show lo / 16 = i by omega]
  · intro he
    exact ⟨lo / 16, by omega, ⟨by omega, by omega⟩, he⟩

/-! ## Writes to a local row (R177) -/

/-- A byte of the scratchpads after a write: the new one under the mask, and what stood there elsewhere. -/
theorem tget_writeLocal (s : State) (core row : Nat) (m : Row256) (v : Row) (fill : Bool) (j : Nat) :
    tget 0 j (s.writeLocal core row m v fill).spad.bytes =
      if spadKey core row ≤ j ∧ j < spadKey core row + 256 ∧ m.getLsbD (j - spadKey core row) = true then
        BitVec.ofNat 8 (elem 8 v (j - spadKey core row))
      else tget 0 j s.spad.bytes := by
  rw [(writeLocal_keeps s core row m v fill).2, tget_write]
  by_cases hj : spadKey core row ≤ j ∧ j < spadKey core row + 256
  · obtain ⟨hl, hh⟩ := hj
    have hi : j - spadKey core row < 256 := by omega
    have hbyte : ∀ r : Row, BitVec.ofNat 8 (r.toNat / 256 ^ (j - spadKey core row)) =
        BitVec.ofNat 8 (elem 8 r (j - spadKey core row)) := fun r => by
      rw [elem_eight]; exact BitVec.eq_of_toNat_eq (by simp)
    rw [if_pos ⟨hl, hh⟩, getD_toBytes _ _ _ hi, hbyte, elem_mergeRow _ _ _ _ hi]
    cases hm : m.getLsbD (j - spadKey core row)
    · simp [elem_eight_localRow _ _ _ _ hi, show spadKey core row + (j - spadKey core row) = j by omega]
    · simp [hl, hh]
  · rw [if_neg hj, if_neg fun h => hj ⟨h.1, h.2.1⟩]

/-- Marking probe slots dirty changes no scratchpad. -/
theorem writeLocal_spad_fill (s : State) (core row : Nat) (m : Row256) (v : Row) (fill : Bool) :
    (s.writeLocal core row m v fill).spad = (s.writeLocal core row m v true).spad := by
  unfold State.writeLocal
  simp only
  split
  · rfl
  · refine foldl_keeps (fun t : State => t.spad = _) _ (fun t e ht => ?_) _ _ rfl
    split <;> exact ht

/-- A write to a local row changes scratchpad bytes, their error marks and the dirty masks of probe slots alone. -/
theorem onlySpad_writeLocal (s : State) (core row : Nat) (m : Row256) (v : Row) (fill : Bool) :
    OnlySpad s (s.writeLocal core row m v fill) := by
  refine ⟨(writeLocal_keeps s core row m v fill).1, ?_, writeLocal_ctx s core row m v fill⟩
  rw [writeLocal_spad_fill]
  rfl

/-- A write that covers no bank line whole clears no error mark (R175). -/
theorem writeLocal_err_of_partial (s : State) (core row : Nat) (m : Row256) (v : Row) (fill : Bool)
    (h : ∀ i, bits m.toNat (16 * i) 16 ≠ 65535) : (s.writeLocal core row m v fill).spad.err = s.spad.err := by
  rw [writeLocal_spad_fill]
  exact foldl_keeps (fun e => e = s.spad.err) _ (fun e i he => by rw [if_neg (h i)]; exact he) _ _ rfl

/-- Eight bytes cover no bank line of 16. -/
theorem byteRange_eight_partial (lo i : Nat) : bits (byteRange lo 8).toNat (16 * i) 16 ≠ 65535 := by
  intro h
  have hbit : ∀ b, b < 16 → (byteRange lo 8).getLsbD (16 * i + b) = true := fun b hb => by
    have hall : (65535 : Nat).testBit b = true := by
      rw [show 65535 = 2 ^ 16 - 1 by rfl, Nat.testBit_two_pow_sub_one]; exact decide_eq_true hb
    rw [← h, bits, Nat.testBit_mod_two_pow, Nat.testBit_div_two_pow, BitVec.testBit_toNat, Nat.add_comm b] at hall
    exact (Bool.and_eq_true_iff.1 hall).2
  have hfirst := hbit 0 (by omega)
  have hlast := hbit 15 (by omega)
  rw [getLsbD_byteRange, decide_eq_true_eq] at hfirst hlast
  omega

end Sys2Proof.Machine

/-! SUPPORT. The issue of a lone instruction, and accesses to the rows of other cores of a fused cluster. -/

namespace Sys2Proof.Machine

/-! ## The issue of a lone instruction (R41, R42, R46) -/

/-- A meaning that meets no hold and no fault, and never parks or stalls, takes its effect. -/
theorem run_completes (m : Sem) (s : State) (hq : m.hold s = false) (hf : m.fault s = none) (hi : m.instead s = none)
    (ha : m.arrive s = s) (hb : m.block s = []) (hs : m.stall s = none) : m.run s = .next (m.eff s) := by
  unfold Sem.run
  simp [hq, hf, hi, ha, hb, hs]

/-- A meaning that meets a fault at issue takes its trap, with the record of R339. -/
theorem trapsAtIssue_of_fault (i : Instr) (m : Sem) (s : State) (code : Nat) (eaddr einfo : Word)
    (he : exec i s = m.run s) (hq : m.hold s = false)
    (hf : m.fault s = some { code := code, eaddr := eaddr, einfo := einfo }) (hc : code < 256) :
    TrapsAtIssue i s code eaddr einfo := by
  refine ⟨issueTrap { code := code, eaddr := eaddr, einfo := einfo } (2 ^ s.iss.slot.bit) s, ?_, ?_⟩
  · rw [he]; unfold Sem.run; simp [hq, hf]
  · have hcause : BitVec.ofNat 64 code = causeWord code false false false := by
      simp [causeWord, word, Nat.mod_eq_of_lt hc]
    rw [hcause]
    exact issueTrap_trapped _ _ s

theorem acquiring_true (s : State) (h : ¬ NoAcquire s) : s.acquiring = true := by
  refine Decidable.byContradiction fun hc => h fun m hm hk => Bool.eq_false_iff.2 fun ha => hc ?_
  unfold State.acquiring
  exact List.any_eq_true.2 ⟨m, hm, Bool.and_eq_true_iff.2 ⟨beq_iff_eq.2 hk, ha⟩⟩

/-! ## Accesses to rows of other cores (R176) -/

/-- From `s` to `t` an access to another core's row has issued: it stands last in the context's list, and the
registers `w` wait for its value; nothing else differs. -/
def IssuesFused (s t : State) (ea : Word) (kind : FusedKind) (w : List XReg) : Prop :=
  OnlyCtx s t s.iss.key ∧ t.me = { s.me with
    acc := s.me.acc + 1, xwait := s.me.xwait ++ w
    fused := s.me.fused ++ [{ num := s.me.acc, core := (s.eaPlace ea).1, row := (s.eaPlace ea).2, kind := kind }] }

theorem pushFused_issues (s : State) (ea : Word) (kind : FusedKind) : IssuesFused s (s.pushFused ea kind) ea kind [] := by
  refine ⟨onlyCtx_mapMe s _, ?_⟩
  rw [State.pushFused, State.me_mapMe, List.append_nil]
  rfl

theorem pushFused_awaitX_issues (s : State) (ea : Word) (kind : FusedKind) (rd : XReg) :
    IssuesFused s ((s.pushFused ea kind).awaitX rd) ea kind (if rd = 0 then [] else [rd]) := by
  refine ⟨onlyCtx_trans (onlyCtx_mapMe s _) (onlyCtx_mapMe _ _), ?_⟩
  rw [State.awaitX, State.me_mapMe, State.pushFused, State.me_mapMe]
  split
  · rw [List.append_nil]; rfl
  · rfl

/-! ## Fused accesses taking effect (R176) -/

theorem minor_fused (s : State) (k : CtxKey) (o : FusedOp) (rest : List FusedOp) (hp : s.powered = true)
    (hf : (s.ctx k).fused = o :: rest) : s.minor (.fused k) = .next (s.applyFused k o) := by
  have hr : s.firmwareReady (.fused k) = true := rfl
  simp only [State.minor, hp, hr, hf]
  rfl

theorem deliverX_fused (c : Ctx) (rd : XReg) (v : Word) : (c.deliverX rd v).fused = c.fused := by
  unfold Ctx.deliverX Ctx.wx
  split
  · split <;> rfl
  · rfl

theorem deliverV_fused (c : Ctx) (vd : VReg) (f : Row → Row) : (c.deliverV vd f).fused = c.fused := by
  unfold Ctx.deliverV Ctx.wv
  split <;> rfl

theorem writeLocal_ctx_fused (s : State) (core row : Nat) (m : Row256) (v : Row) (fill : Bool) (j : CtxKey) :
    ((s.writeLocal core row m v fill).ctx j).fused = (s.ctx j).fused := by
  rw [writeLocal_ctx]

/-- What a fused access does keeps its context's list of fused accesses. -/
theorem doFused_ctx_fused (s : State) (k : CtxKey) (o : FusedOp) : ((s.doFused k o).ctx k).fused = (s.ctx k).fused := by
  unfold State.doFused
  simp only
  split
  · rw [State.ctx_mapCtx_same, deliverX_fused]
  · rw [State.ctx_mapCtx_same, deliverV_fused]
  · rw [writeLocal_ctx_fused]
  · split
    · rw [writeLocal_ctx_fused]
    · rw [State.ctx_mapCtx_same, deliverV_fused, writeLocal_ctx_fused]

/-- The access that takes effect is taken off the list of its context. -/
theorem applyFused_ctx_fused (s : State) (k : CtxKey) (o : FusedOp) :
    ((s.applyFused k o).ctx k).fused = (s.ctx k).fused.drop 1 := by
  rw [State.applyFused, doFused_ctx_fused, State.ctx_mapCtx_same]

/-- A result that a context awaits is written, and the register waits once less (R42). -/
theorem deliverX_awaited (c : Ctx) (rd : XReg) (v : Word) (h : rd ∈ c.xwait) :
    c.deliverX rd v = { c.wx rd v with xwait := c.xwait.erase rd } := if_pos (List.contains_iff_mem.2 h)

/-- A fused LDS that takes effect writes the field to its register where that waits, and no scratchpad. -/
theorem applyFused_field (s : State) (k : CtxKey) (o : FusedOp) (rd : XReg) (lo : Nat) (hk : o.kind = .field rd lo)
    (hw : rd ∈ (s.ctx k).xwait) :
    (s.applyFused k o).spad = s.spad ∧ ((s.applyFused k o).ctx k).xwait = (s.ctx k).xwait.erase rd ∧
      ∀ q, ((s.applyFused k o).ctx k).xr q =
        if q = rd ∧ q ≠ 0 then BitVec.ofNat 64 (elem 64 (s.localRow o.core o.row) (lo / 8)) else (s.ctx k).xr q := by
  rw [State.applyFused, State.doFused, hk]
  refine ⟨rfl, ?_, fun q => ?_⟩
  · rw [State.ctx_mapCtx_same, State.ctx_mapCtx_same, deliverX_awaited]
    exact hw
  · rw [State.ctx_mapCtx_same, State.ctx_mapCtx_same, deliverX_awaited]
    · exact Ctx.xr_wx _ rd q _
    · exact hw

/-- A fused STS that takes effect writes the bytes of its mask, and no register. -/
theorem applyFused_store (s : State) (k : CtxKey) (o : FusedOp) (mask : Row256) (data : Row)
    (hk : o.kind = .store mask data) :
    ((s.applyFused k o).ctx k).regs = (s.ctx k).regs ∧ ∀ j, tget 0 j (s.applyFused k o).spad.bytes =
      if spadKey o.core o.row ≤ j ∧ j < spadKey o.core o.row + 256 ∧ mask.getLsbD (j - spadKey o.core o.row) = true then
        BitVec.ofNat 8 (elem 8 data (j - spadKey o.core o.row))
      else tget 0 j s.spad.bytes := by
  rw [State.applyFused, State.doFused, hk]
  refine ⟨?_, fun j => tget_writeLocal _ _ _ _ _ _ j⟩
  simp only
  rw [writeLocal_ctx, State.ctx_mapCtx_same]

end Sys2Proof.Machine

/-! SUPPORT. The obligation O5: scalar accesses to the scratchpad (R92, R93). -/

namespace Sys2Proof.Machine

/-! ## Addresses of scalar accesses (R92, R173, R174) -/

theorem rangeFault_inside (s : State) (ea : Word) (h : ea.toNat < s.extent s.myCore) : s.rangeFault ea = none := if_pos h

theorem rangeFault_outside (s : State) (ea : Word) (h : s.extent s.myCore ≤ ea.toNat) :
    s.rangeFault ea = some { code := 9, eaddr := ea } := if_neg (Nat.not_lt.2 h)

theorem fieldOf_aligned (ea : Word) : fieldOf ea % 8 = 0 := Nat.mul_mod_left _ _

theorem fieldOf_add_le (ea : Word) : fieldOf ea + 8 ≤ 256 := by
  unfold fieldOf; omega

/-- Where the field of an address begins in the table of scratchpads: in its row, by the byte within the row. -/
theorem spadAddr_field (s : State) (ea : Word) :
    s.spadAddr s.myCore (ea.toNat / 8 * 8) = spadKey (s.eaPlace ea).1 (s.eaPlace ea).2 + fieldOf ea := by
  unfold State.spadAddr State.eaPlace fieldOf
  rw [show ea.toNat / 8 * 8 / 256 = ea.toNat / 256 by omega, show ea.toNat / 8 * 8 % 256 = ea.toNat % 256 / 8 * 8 by omega]

theorem ownRow_iff (s : State) (ea : Word) : s.ownRow ea = true ↔ (s.eaPlace ea).1 = s.myCore.toNat := beq_iff_eq

/-- The field of an address inside the extent meets no fault where its bank line holds no error (R173, R175). -/
theorem rowFault_none (s : State) (ea : Word) (h : ea.toNat < s.extent s.myCore)
    (he : tget false (s.spadAddr s.myCore (ea.toNat / 8 * 8) / 16) s.spad.err = false) :
    s.rowFault ea (fieldOf ea) (fieldOf ea + 8) = none := by
  have hlt := fieldOf_add_le ea
  unfold State.rowFault
  rw [rangeFault_inside s ea h, rowBad_field _ _ _ _ (fieldOf_aligned ea) (by omega), ← spadAddr_field, he]
  rfl

theorem rowFault_outside (s : State) (ea : Word) (lo hi : Nat) (h : s.extent s.myCore ≤ ea.toNat) :
    s.rowFault ea lo hi = some { code := 9, eaddr := ea } := by
  unfold State.rowFault; rw [rangeFault_outside s ea h]

@[simp] theorem flush_ea (s : State) (base : XReg) (off : BitVec 32) : s.flush.ea base off = s.ea base off := by
  unfold State.ea State.rx; rw [flush_iss]

@[simp] theorem flush_eaPlace (s : State) (ea : Word) : s.flush.eaPlace ea = s.eaPlace ea := by
  unfold State.eaPlace; rw [flush_isFused, flush_myCore]

/-! ## LDS and STS (R92, R93) -/

theorem exec_lds (r base : XReg) (off : BitVec 32) (s : State) : exec (.lds r base off) s = (semLds r base off).run s := rfl

theorem exec_sts (r base : XReg) (off : BitVec 32) (s : State) : exec (.sts r base off) s = (semSts r base off).run s := rfl

/-- LDS inside the extent takes its effect where its field holds no error and no acquire is awaited. -/
theorem exec_lds_inside (s : State) (r base : XReg) (off : BitVec 32) (h : (s.ea base off).toNat < s.extent s.myCore)
    (he : tget false (s.spadAddr s.myCore ((s.ea base off).toNat / 8 * 8) / 16) s.spad.err = false) (hq : NoAcquire s) :
    exec (.lds r base off) s = .next ((semLds r base off).eff s) :=
  (exec_lds r base off s).trans
    (run_completes (semLds r base off) s (acquiring_false s hq) (rowFault_none s _ h he) rfl rfl rfl rfl)

/-- STS inside the extent takes its effect where no acquire is awaited. -/
theorem exec_sts_inside (s : State) (r base : XReg) (off : BitVec 32) (h : (s.ea base off).toNat < s.extent s.myCore)
    (hq : NoAcquire s) : exec (.sts r base off) s = .next (s.storeField r base off) :=
  (exec_sts r base off s).trans
    (run_completes (semSts r base off) s (acquiring_false s hq) (rangeFault_inside s _ h) rfl rfl rfl rfl)

/-- The 8 bytes of the field of an address of the issuing core, in the order of memory (R3, R92). -/
def State.fieldBytes (s : State) (ea : Word) : List Byte :=
  (List.range 8).map fun i => tget 0 (s.spadAddr s.myCore (ea.toNat / 8 * 8) + i) s.spad.bytes

/-- An LDS of an own row reads the field of the state in which the earlier fused accesses are performed. -/
theorem lds_eff_own (s : State) (r base : XReg) (off : BitVec 32) (h : s.ownRow (s.ea base off) = true) :
    (semLds r base off).eff s = s.flush.wx r (BitVec.ofNat 64 (ofBytes (s.flush.fieldBytes (s.ea base off)))) := by
  have hlt := fieldOf_add_le (s.ea base off)
  have hfield := elem_field_localRow s.flush (s.eaPlace (s.ea base off)).1 (s.eaPlace (s.ea base off)).2 _
    (fieldOf_aligned (s.ea base off)) (by omega)
  rw [State.fieldBytes, spadAddr_field, flush_eaPlace, ← hfield]
  unfold semLds
  simp only [h, if_true, flush_ea]
  unfold State.row word State.eaPlace
  rw [flush_myCore, flush_isFused]

theorem lds_eff_fused (s : State) (r base : XReg) (off : BitVec 32) (h : ¬ s.ownRow (s.ea base off) = true) :
    (semLds r base off).eff s =
      (s.pushFused (s.ea base off) (.field r (fieldOf (s.ea base off)))).awaitX r := if_neg h

/-- The row that STS stores: the bytes of x[rs] in the field, lowest first. -/
def State.stsData (s : State) (rs base : XReg) (off : BitVec 32) : Row :=
  placeBytes (fieldOf (s.ea base off)) (toBytes 8 (s.rx rs).toNat)

theorem elem_stsData (s : State) (rs base : XReg) (off : BitVec 32) (i : Nat) (h : i < 8) :
    elem 8 (s.stsData rs base off) (fieldOf (s.ea base off) + i) = (s.rx rs).toNat / 256 ^ i % 256 := by
  have hlt := fieldOf_add_le (s.ea base off)
  rw [State.stsData, elem_placeBytes _ _ _ (by omega), getD_toBytes _ _ _ h, BitVec.toNat_ofNat]

/-- An STS of an own row writes the field of the state in which the earlier fused accesses are performed. -/
theorem storeField_own (s : State) (rs base : XReg) (off : BitVec 32) (h : s.ownRow (s.ea base off) = true) :
    s.storeField rs base off = s.flush.writeLocal (s.eaPlace (s.ea base off)).1 (s.eaPlace (s.ea base off)).2
      (byteRange (fieldOf (s.ea base off)) 8) (s.stsData rs base off) false := by
  unfold State.storeField State.writeRow State.eaPlace
  rw [if_pos h, flush_isFused]
  rfl

theorem storeField_fused (s : State) (rs base : XReg) (off : BitVec 32) (h : ¬ s.ownRow (s.ea base off) = true) :
    s.storeField rs base off =
      s.pushFused (s.ea base off) (.store (byteRange (fieldOf (s.ea base off)) 8) (s.stsData rs base off)) := if_neg h

/-- A byte after an STS of an own row: that of x[rs] within the field, and what stood there elsewhere. -/
theorem tget_storeField_own (s : State) (rs base : XReg) (off : BitVec 32) (h : s.ownRow (s.ea base off) = true) (j : Nat) :
    tget 0 j (s.storeField rs base off).spad.bytes =
      if s.spadAddr s.myCore ((s.ea base off).toNat / 8 * 8) ≤ j ∧
          j < s.spadAddr s.myCore ((s.ea base off).toNat / 8 * 8) + 8 then
        BitVec.ofNat 8 ((s.rx rs).toNat / 256 ^ (j - s.spadAddr s.myCore ((s.ea base off).toNat / 8 * 8)))
      else tget 0 j s.flush.spad.bytes := by
  have hlt := fieldOf_add_le (s.ea base off)
  rw [storeField_own s rs base off h, tget_writeLocal, spadAddr_field]
  generalize spadKey (s.eaPlace (s.ea base off)).1 (s.eaPlace (s.ea base off)).2 = key
  simp only [getLsbD_byteRange, decide_eq_true_eq]
  by_cases hj : key + fieldOf (s.ea base off) ≤ j ∧ j < key + fieldOf (s.ea base off) + 8
  · have helem := elem_stsData s rs base off (j - (key + fieldOf (s.ea base off))) (by omega)
    rw [show fieldOf (s.ea base off) + (j - (key + fieldOf (s.ea base off))) = j - key by omega] at helem
    rw [if_pos (by omega), if_pos hj, helem]
    exact BitVec.eq_of_toNat_eq (by simp)
  · rw [if_neg (by omega), if_neg hj]

/-- Outside the extent both take the range trap at issue, with the address (R173, R339). -/
theorem scalarAccess_traps (s : State) (r base : XReg) (off : BitVec 32) (h : s.extent s.myCore ≤ (s.ea base off).toNat)
    (hq : NoAcquire s) : TrapsAtIssue (.lds r base off) s 9 (s.ea base off) 0 ∧
      TrapsAtIssue (.sts r base off) s 9 (s.ea base off) 0 :=
  ⟨trapsAtIssue_of_fault _ (semLds r base off) s 9 _ 0 (exec_lds r base off s) (acquiring_false s hq)
    (rowFault_outside s _ _ _ h) (by decide),
    trapsAtIssue_of_fault _ (semSts r base off) s 9 _ 0 (exec_sts r base off s) (acquiring_false s hq)
      (rangeFault_outside s _ h) (by decide)⟩

/-- While an acquire is awaited both wait and change nothing (R186). -/
theorem scalarAccess_waits (s : State) (r base : XReg) (off : BitVec 32) (hq : ¬ NoAcquire s) :
    exec (.lds r base off) s = .next s ∧ exec (.sts r base off) s = .next s :=
  ⟨(exec_lds r base off s).trans (run_of_hold (semLds r base off) s (acquiring_true s hq)),
    (exec_sts r base off s).trans (run_of_hold (semSts r base off) s (acquiring_true s hq))⟩

/-- Settles O5: inside the extent by the effects of LDS and STS on own rows and on rows of other cores, then by the
effect of the earliest fused access, and last by the range fault and the hold. -/
theorem scalarAccess : Obligations.ScalarAccess := by
  unfold Obligations.ScalarAccess
  refine ⟨?_, ?_, fun s r base off => ⟨scalarAccess_traps s r base off, scalarAccess_waits s r base off⟩⟩
  · intro s r base off ea u pl at_ lo later hext hq
    have hown : pl.1 = s.myCore.toNat → s.ownRow ea = true := (ownRow_iff s ea).2
    have hother : pl.1 ≠ s.myCore.toNat → ¬ s.ownRow ea = true := fun h g => h ((ownRow_iff s ea).1 g)
    have hsts := exec_sts_inside s r base off hext hq
    refine ⟨fun he hp => ?_, fun he hp => ?_, fun hp => ?_, fun hp => ?_⟩
    · refine ⟨_, exec_lds_inside s r base off hext he hq, ?_⟩
      have hat : at_ = s.flush.spadAddr s.flush.myCore (ea.toNat / 8 * 8) := by
        rw [spadAddr_field, flush_eaPlace, ← spadAddr_field]
      rw [lds_eff_own s r base off (hown hp), hat]
      exact writesX_wx _ _ _
    · refine ⟨_, exec_lds_inside s r base off hext he hq, ?_⟩
      rw [lds_eff_fused s r base off (hother hp)]
      exact pushFused_awaitX_issues s ea _ r
    · refine ⟨_, hsts, ?_, ?_, tget_storeField_own s r base off (hown hp)⟩
      · rw [storeField_own s r base off (hown hp)]
        exact onlySpad_writeLocal _ _ _ _ _ _
      · rw [storeField_own s r base off (hown hp)]
        exact writeLocal_err_of_partial _ _ _ _ _ _ (byteRange_eight_partial _)
    · refine ⟨byteRange (fieldOf ea) 8, s.stsData r base off, ⟨_, hsts, ?_⟩, fun i hi => ?_, elem_stsData s r base off⟩
      · rw [storeField_fused s r base off (hother hp)]
        exact pushFused_issues s ea _
      · rw [getLsbD_byteRange, decide_eq_decide]
        exact and_iff_right hi
  · intro s k o rest hp hf
    refine ⟨_, minor_fused s k o rest hp hf, (fusedOnly_applyFused s k o).1, ?_, applyFused_field s k o,
      applyFused_store s k o⟩
    rw [applyFused_ctx_fused, hf]
    rfl

end Sys2Proof.Machine

/-! SUPPORT. Putting operations into the streams of the array, and the checks of descriptors at issue (R131, R135). -/

namespace Sys2Proof.Machine

/-! ## Room in a stream's queue (R131) -/

/-- Fewer than 8 operations of stream `st` of the issuing core have not started. -/
def State.matRoom (s : State) (st : BitVec 2) : Prop :=
  ((s.arr s.myCore).queue st).countP (fun o => o.started.isNone) < 8

theorem full_eq_false_of_room (s : State) (st : BitVec 2) (h : s.matRoom st) : (s.arr s.myCore).full st = false := by
  unfold ArrayState.full
  rw [← List.countP_eq_length_filter]
  exact decide_eq_false (Nat.not_le.2 h)

theorem matBlock_of_room (s : State) (st : BitVec 2) (h : s.matRoom st) : s.matBlock st = [] := by
  unfold State.matBlock
  simp [full_eq_false_of_room s st h]

theorem matStall_of_room (s : State) (st : BitVec 2) (h : s.matRoom st) : s.matStall st = none := by
  unfold State.matStall
  simp [full_eq_false_of_room s st h]

/-! ## Queues read after they are set -/

theorem queue_setQueue (a : ArrayState) (st q : BitVec 2) (l : List MatOp) :
    (a.setQueue st l).queue q = if q = st then l else a.queue q := by
  unfold ArrayState.queue ArrayState.setQueue
  simp only [tget_tput, BitVec.toNat_inj]

theorem queue_issued (a : ArrayState) (n : Nat) (q : BitVec 2) : ({ a with issued := n } : ArrayState).queue q = a.queue q := rfl

theorem arr_mapArr_same (s : State) (n : CoreNo) (f : ArrayState → ArrayState) : (s.mapArr n f).arr n = f (s.arr n) := by
  unfold State.arr State.mapArr
  rw [State.core_mapCore_same]

theorem onlyCore_mapArr (s : State) (n : CoreNo) (f : ArrayState → ArrayState) : OnlyCore s (s.mapArr n f) n :=
  onlyCore_mapCore s n _

@[simp] theorem arr_mapMe (s : State) (f : Ctx → Ctx) (n : CoreNo) : (s.mapMe f).arr n = s.arr n := rfl

/-! ## One operation put last (R131) -/

theorem submit_enqueues (s : State) (st : BitVec 2) (o : MatOp) : Enqueues s (s.submit st o) st o := by
  refine ⟨onlyCore_mapArr s _ _, ?_, fun q => ?_⟩
  · unfold State.submit
    rw [arr_mapArr_same, State.mapArr, State.core_mapCore_same]
    rfl
  · unfold State.submit
    rw [arr_mapArr_same]
    exact queue_setQueue _ st q _

/-- The stream of an operation after it is put: the operation stands last, under the array's next number. -/
theorem queue_submit (s : State) (st : BitVec 2) (o : MatOp) : ((s.submit st o).arr s.myCore).queue st =
    (s.arr s.myCore).queue st ++ [{ o with id := (s.arr s.myCore).issued }] := by
  obtain ⟨_, _, hqueue⟩ := submit_enqueues s st o
  rw [hqueue st, if_pos rfl]

theorem submit_me (s : State) (st : BitVec 2) (o : MatOp) : (s.submit st o).me = s.me := rfl

/-- An instruction that only puts an operation into a stream does so where its checks find no fault and there is room. -/
theorem puts_of_matSem (m : Sem) {i : Instr} {s : State} {st : BitVec 2} {fault : State → Option TrapInfo}
    {op : State → MatOp} {o : MatOp} (hm : m = matSem st fault op) (he : exec i s = m.run s) (hf : m.fault s = none)
    (ho : op s = o) (hroom : s.matRoom st) : ∃ t, exec i s = .next t ∧ Enqueues s t st o := by
  subst hm ho
  exact ⟨s.submit st (op s), he.trans (run_completes (matSem st fault op) s rfl hf rfl rfl (matBlock_of_room s st hroom)
    (matStall_of_room s st hroom)), submit_enqueues s st (op s)⟩

/-! ## Operations that draw (R71, R146) -/

/-- A drain is put with the draw state of its context, and stochastic rounding alone advances EIDX. -/
theorem submitDrain_me (s : State) (st : BitVec 2) (o : MatOp) (rnd : Rnd) (n : Nat) :
    (s.submitDrain st o rnd n).me = { s.me with stat := { s.me.stat with
      rndctr := if rnd = .sr then advanceCtr s.me.stat.rndctr n else s.me.stat.rndctr } } := by
  unfold State.submitDrain
  rw [State.me_mapMe, submit_me]
  split <;> rfl

theorem queue_submitDrain (s : State) (st : BitVec 2) (o : MatOp) (rnd : Rnd) (n : Nat) :
    ((s.submitDrain st o rnd n).arr s.myCore).queue st = (s.arr s.myCore).queue st ++
      [{ o with id := (s.arr s.myCore).issued, seed := s.me.stat.rndseed, ctr := s.me.stat.rndctr }] := by
  unfold State.submitDrain
  rw [arr_mapMe]
  exact queue_submit s st _

/-! ## Meanings that read stream heads (R103, R176) -/

@[simp] theorem after_iss (s : State) (l : List VSrc) : (s.after l).iss = s.iss := by
  unfold State.after
  split
  · rfl
  · exact flush_iss s

/-- A meaning on heads that are ready takes its effect in the state in which the earlier fused accesses are performed, where
it meets no fault, wait or stall. -/
theorem onHeads_run (m : Sem) (l : List VSrc) (s : State) (h : HeadsReady s l) (hq : m.hold s = false)
    (hf : m.fault (s.after l) = none) (hi : m.instead s = none) (ha : m.arrive s = s) (hb : m.block s = [])
    (hs : m.stall s = none) : (m.onHeads l).run s = .next (m.eff (s.after l)) := by
  unfold Sem.onHeads
  unfold State.after at *
  by_cases hl : (headsOf l).isEmpty = true
  · rw [if_pos hl] at hf ⊢
    rw [if_pos hl]
    exact run_completes m s hq hf hi ha hb hs
  · rw [if_neg hl] at hf ⊢
    rw [if_neg hl]
    obtain ⟨sn, hm⟩ := List.exists_mem_of_ne_nil _ fun hnil => hl (List.isEmpty_iff.2 hnil)
    obtain ⟨_, _, _, _, hacquire⟩ := h sn hm
    exact onRow_run m s hf hi ha hb hacquire hs

/-! ## The checks of descriptors (R135) -/

/-- The format checks of R135 on descriptor `d`, over its fields: reserved bits, COLS and V within their bounds, a type that
takes part, and rows that hold the vector. -/
def DescFails (d : BitVec 128) (ok : ETy → Bool) (cmax vmax : Nat) : Prop :=
  dfl d 43 1 ≠ 0 ∨ dfl d 57 7 ≠ 0 ∨ dfl d 81 15 ≠ 0 ∨ dfl d 16 4 ≠ 0 ∨ dfl d 44 7 = 0 ∨ cmax < dfl d 44 7 ∨
    vmax < dfl d 36 7 + 1 ∨ ∀ ty, ETy.ofCode? (dfl d 51 4) = some ty → ok ty = false ∨
      2048 < 8 * dfl d 16 8 + (if dfl d 55 1 = 1 then dfl d 36 7 + 1 else dfl d 44 7) * ty.width ∨
      (dfl d 55 1 = 1 ∧ ty.width = 6) ∨ (dfl d 80 1 = 1 ∧ (ty = .f32 ∨ ty = .bf16 ∨ ty = .f16 ∨ ty = .i8))

theorem descBad_iff (d : BitVec 128) (ok : ETy → Bool) (cmax vmax : Nat) :
    descBad d ok (dCols d) cmax vmax = true ↔ DescFails d ok cmax vmax := by
  unfold descBad DescFails dType dWidth dFmt dByCol dSen dCols dVecs
  cases ETy.ofCode? (dfl d 51 4) with
  | none => simp
  | some ty => simp [or_assoc, or_left_comm]

theorem descFault_of_fails (s : State) (d : BitVec 128) (ok : ETy → Bool) (cmax vmax : Nat) (h : DescFails d ok cmax vmax) :
    s.descFault d ok cmax vmax = some { code := 10 } := if_pos ((descBad_iff d ok cmax vmax).2 h)

/-- A descriptor of good format with a row outside the extent gives the range fault, with the address of its first such row. -/
theorem descFault_of_outside (s : State) (d : BitVec 128) (ok : ETy → Bool) (cmax vmax r : Nat)
    (h : ¬ DescFails d ok cmax vmax)
    (hr : (descRows d (dElems d)).find? (fun r => decide (s.extent s.myCore ≤ 256 * r)) = some r) :
    s.descFault d ok cmax vmax = some { code := 9, eaddr := word (256 * r) } := by
  unfold State.descFault State.rowListFault
  rw [if_neg fun hbad => h ((descBad_iff d ok cmax vmax).1 hbad), hr]
  rfl

/-- An instruction whose fault is that of its descriptor traps on a bad format, and else on the first row outside. -/
theorem traps_of_descFault (i : Instr) (m : Sem) (s : State) (d : BitVec 128) (ok : ETy → Bool) (cmax vmax : Nat)
    (he : exec i s = m.run s) (hq : m.hold s = false)
    (hf : ∀ t, s.descFault d ok cmax vmax = some t → m.fault s = some t) :
    (DescFails d ok cmax vmax → TrapsAtIssue i s 10 0 0) ∧
      ∀ r, ¬ DescFails d ok cmax vmax →
        (descRows d (dElems d)).find? (fun r => decide (s.extent s.myCore ≤ 256 * r)) = some r →
        TrapsAtIssue i s 9 (BitVec.ofNat 64 (256 * r)) 0 :=
  ⟨fun h => trapsAtIssue_of_fault i m s 10 0 0 he hq (hf _ (descFault_of_fails s d ok cmax vmax h)) (by decide),
    fun r h hr => trapsAtIssue_of_fault i m s 9 _ 0 he hq (hf _ (descFault_of_outside s d ok cmax vmax r h hr)) (by decide)⟩

end Sys2Proof.Machine

/-! SUPPORT. The obligations O22 and O23: the M-slot instructions at issue (R131 to R152, R162 to R170). -/

namespace Sys2Proof.Machine

/-! ## Reading the operands of MMULG (R143) -/

/-- MMULG whose head is ready and whose checks find no fault puts its operation, with the descriptor and the index vector
captured. -/
theorem exec_mmulg_puts (s : State) (st at_ : BitVec 2) (set : BitVec 4) (da : BitVec 3) (rev acc : Bool) (row0 : BitVec 7)
    (vi : VSrc) (hdesc : State.gatherDesc ((s.after [vi]).desc da) row0.toNat = none)
    (hrows : (s.after [vi]).gatherFault ((s.after [vi]).desc da) ((s.after [vi]).src vi) = none)
    (hheads : HeadsReady s [vi]) (hroom : s.matRoom st) :
    exec (.mmulg st at_ set da rev acc row0 vi) s = .next (((s.after [vi]).consume [vi]).submit st
      { (s.after [vi]).matOp (.mmulg st at_ set da rev acc row0 vi) with
        da := (s.after [vi]).desc da, vi := (s.after [vi]).src vi }) := by
  obtain ⟨hsrc, hbad⟩ := heads_fault s [vi] hheads
  refine onHeads_run _ [vi] s hheads rfl ?_ rfl rfl ?_ (matStall_of_room s st hroom)
  · simp only [hsrc, hbad, hdesc, hrows, Option.or_none, ite_self]
  · simp only [heads_block s [vi] hheads, matBlock_of_room s st hroom, List.append_nil]

/-! ## MDRAIN, MSTAT (R146, R147, R152) -/

/-- MDRAIN to rows without a fault, with room. -/
theorem exec_mdrain_puts (s : State) (st at_ : BitVec 2) (d : BitVec 3) (row0 : BitVec 7) (rnd : Rnd) (clr q : Bool)
    (sl : SReg) (hf : s.drainFault (s.desc d) row0.toNat q sl = none) (hroom : s.matRoom st) :
    exec (.mdrain st at_ d row0 rnd clr q sl) s = .next (s.submitDrain st
      { s.matOp (.mdrain st at_ d row0 rnd clr q sl) with da := s.desc d } rnd (32 * dVecs (s.desc d))) :=
  run_completes (semMdrain st at_ d row0 rnd clr q sl) s rfl hf rfl rfl (matBlock_of_room s st hroom)
    (matStall_of_room s st hroom)

/-- MDRAIN to a vector register of an output format, with room. -/
theorem exec_mdrainV_puts (s : State) (st at_ : BitVec 2) (vd : VReg) (row0 : BitVec 7) (rnd : Rnd) (ty : ETy) (clr : Bool)
    (hty : ty.isFloat = true) (hroom : s.matRoom st) : exec (.mdrainV st at_ vd row0 rnd ty clr) s =
      .next ((s.submitDrain st (s.matOp (.mdrainV st at_ vd row0 rnd ty clr)) rnd 32).awaitV vd) :=
  run_completes (semMdrainV st at_ vd row0 rnd ty clr) s rfl (if_pos hty) rfl rfl (matBlock_of_room s st hroom)
    (matStall_of_room s st hroom)

theorem exec_mstat_puts (s : State) (st : BitVec 2) (xd : XReg) (sel : BitVec 2) (clr : Bool) (hroom : s.matRoom st) :
    exec (.mstat st xd sel clr) s = .next ((s.submit st (s.matOp (.mstat st xd sel clr))).awaitX xd) :=
  run_completes (semMstat st xd sel clr) s rfl rfl rfl rfl (matBlock_of_room s st hroom) (matStall_of_room s st hroom)

theorem awaitX_me (s : State) (rd : XReg) :
    (s.awaitX rd).me = { s.me with xwait := s.me.xwait ++ if rd = 0 then [] else [rd] } := by
  unfold State.awaitX
  rw [State.me_mapMe]
  split
  · rw [List.append_nil]
  · rfl

theorem awaitV_me (s : State) (vd : VReg) : (s.awaitV vd).me = { s.me with vwait := s.me.vwait ++ [vd] } := by
  unfold State.awaitV
  rw [State.me_mapMe]

/-- Settles O22: each instruction that only puts an operation by `puts_of_matSem`, MMULG on ready heads, and MSTAT and the
drains by what they leave in the stream and the context. -/
theorem matrixIssue : Obligations.MatrixIssue := by
  unfold Obligations.MatrixIssue
  refine ⟨?_, ?_⟩
  · intro s st at_ sel set d1 d2 sp rev acc clr xs row0 vi src da dg room puts op wide
    refine ⟨fun hd hx => ?_, ?_, fun hw hd => ?_, fun hd hx hheads hroom => ?_, ?_, fun hx => ?_, fun hx => ?_, fun hx => ?_,
      fun hw hd => ?_, fun hw hp => ?_, fun hp => ?_, ?_, fun hx => ?_, ?_, fun hroom => ?_⟩
    · refine puts_of_matSem (semMloadw st set d1 sp xs) rfl rfl ?_ rfl
      cases sp with
      | false => exact Option.or_eq_none_iff.2 ⟨hd, rfl⟩
      | true => exact Option.or_eq_none_iff.2 ⟨hd, hx rfl⟩
    · exact puts_of_matSem (semMswap st) rfl rfl rfl rfl
    · exact puts_of_matSem (semMmul st at_ set d1 rev acc row0) rfl rfl ((if_neg hw).trans hd) rfl
    · refine ⟨_, exec_mmulg_puts s st at_ set d1 rev acc row0 vi hd hx hheads hroom, ?_⟩
      rw [State.matOp, after_iss]
      exact submit_enqueues _ st _
    · exact puts_of_matSem (semMzero st at_) rfl rfl rfl rfl
    · exact puts_of_matSem (semMcbook st xs) rfl rfl hx rfl
    · exact puts_of_matSem (semMknot st xs) rfl rfl hx rfl
    · exact puts_of_matSem (semMknotC st xs) rfl rfl hx rfl
    · exact puts_of_matSem (semMspl st at_ d1 acc row0) rfl rfl ((if_neg hw).trans hd) rfl
    · exact puts_of_matSem (semMsplb st at_ d2 d1 acc row0) rfl rfl ((if_neg hw).trans hp) rfl
    · exact puts_of_matSem (semMsplg st d2 d1) rfl rfl hp rfl
    · exact puts_of_matSem (semMrefine st) rfl rfl rfl rfl
    · exact puts_of_matSem (semMgdrain st src xs) rfl rfl hx rfl
    · exact puts_of_matSem (semMgzero st) rfl rfl rfl rfl
    · exact ⟨_, exec_mstat_puts s st xs sel clr hroom, queue_submit s st _, awaitX_me _ xs, rfl, rfl⟩
  · intro s st at_ d row0 rnd clr q sl vd ty room drains
    refine ⟨fun hf hroom => ⟨_, exec_mdrain_puts s st at_ d row0 rnd clr q sl hf hroom, ?_, ?_, rfl, rfl⟩,
      fun hty hroom => ⟨_, exec_mdrainV_puts s st at_ vd row0 rnd ty clr hty hroom, ?_, ?_, rfl, rfl⟩⟩
    · exact queue_submitDrain s st _ rnd _
    · rw [submitDrain_me, List.append_nil]
    · rw [State.awaitV, arr_mapMe]
      exact queue_submitDrain s st _ rnd 32
    · rw [awaitV_me, submitDrain_me]

/-! ## MDSET, MWAIT, MFENCE (R149 to R151) -/

theorem mdset_writes (s : State) (dn : BitVec 3) (lo hi : XReg) :
    ∃ t, exec (.mdset dn lo hi) s = .next t ∧ OnlyCtx s t s.iss.key ∧ t.me = { s.me with d := t.me.d } ∧
      ∀ q, t.desc q = if q = dn then BitVec.ofNat 128 ((s.rx hi).toNat * 2 ^ 64 + (s.rx lo).toNat) else s.desc q := by
  refine ⟨s.mapMe fun c =>
      { c with d := tput 0 dn.toNat (BitVec.ofNat 128 ((s.rx hi).toNat * 2 ^ 64 + (s.rx lo).toNat)) c.d },
    rfl, onlyCtx_mapMe s _, ?_, fun q => ?_⟩
  · rw [State.me_mapMe]
  · rw [State.desc, State.me_mapMe]
    simp only [tget_tput, BitVec.toNat_inj]
    rfl

theorem mwait_of_empty (s : State) (st : BitVec 2) (h : (s.arr s.myCore).queue st = []) :
    exec (.mwait st) s = .next s := by
  refine run_completes (semMwait st) s rfl rfl rfl rfl ?_ rfl
  simp only [semMwait, h, List.isEmpty_nil, if_true]

/-- One entry put last into each of the four queues. -/
theorem queue_streams4 (a : ArrayState) (o : MatOp) (q : BitVec 2) :
    (streams4.foldl (fun a st => a.setQueue st (a.queue st ++ [o])) a).queue q = a.queue q ++ [o] := by
  have hq : q = 0 ∨ q = 1 ∨ q = 2 ∨ q = 3 := by bv_omega
  rcases hq with rfl | rfl | rfl | rfl <;> simp [streams4, queue_setQueue]

theorem mfence_puts (s : State) (h : ∀ q, s.matRoom q) :
    ∃ t, exec .mfence s = .next t ∧ OnlyCore s t s.myCore ∧ ∀ q, (t.arr s.myCore).queue q =
      (s.arr s.myCore).queue q ++ [{ id := (s.arr s.myCore).issued, key := s.iss.key, instr := .mfence }] := by
  refine ⟨_, run_completes semMfence s rfl rfl rfl rfl ?_ ?_, ?_, fun q => ?_⟩
  · exact List.flatMap_eq_nil_iff.2 fun st _ => matBlock_of_room s st (h st)
  · exact List.findSome?_eq_none_iff.2 fun st _ => matStall_of_room s st (h st)
  · dsimp only [semMfence]
    exact onlyCore_mapArr s s.myCore _
  · dsimp only [semMfence]
    rw [arr_mapArr_same, queue_issued, queue_streams4]
    rfl

/-! ## Tile rows past row 127, and faults of a descriptor (R46, R135, R144) -/

/-- Settles O23: MDSET, MWAIT and MFENCE by their effects; MMUL, MSPL and MLOADW by the fault of their descriptor, which the
check of the tile rows precedes. -/
theorem matrixControl : Obligations.MatrixControl := by
  unfold Obligations.MatrixControl
  intro s st at_ set dn lo hi rev acc row0
  have hmul : 128 < row0.toNat + dVecs (s.desc dn) → TrapsAtIssue (.mmul st at_ set dn rev acc row0) s 10 0 0 := fun hw =>
    trapsAtIssue_of_fault _ (semMmul st at_ set dn rev acc row0) s 10 0 0 rfl rfl (if_pos hw) (by decide)
  refine ⟨mdset_writes s dn lo hi, mwait_of_empty s st, mfence_puts s, hmul, fun hw => ?_, fun hw => ?_, fun hw => ?_, ?_⟩
  · exact traps_of_descFault _ (semMmul st at_ set dn rev acc row0) s (s.desc dn) isAct 64 128 rfl rfl
      fun t ht => (if_neg hw).trans ht
  · exact trapsAtIssue_of_fault _ (semMspl st at_ dn acc row0) s 10 0 0 rfl rfl (if_pos hw) (by decide)
  · exact traps_of_descFault _ (semMspl st at_ dn acc row0) s (s.desc dn) isSplineIn 32 128 rfl rfl
      fun t ht => (if_neg hw).trans ht
  · refine traps_of_descFault _ (semMloadw st set dn rev lo) s (s.desc dn) (fun ty => isWeight ty && !(rev && ty == .lq2)) 32 32
      rfl rfl fun t ht => ?_
    exact Option.or_eq_some_iff.2 (.inl ht)

end Sys2Proof.Machine

/-! SUPPORT. The obligations O30, O32 and O41: a dispatcher's write that a probe writeback replays (R208, R217, R262). -/

namespace Sys2Proof.Machine

/-! ## A dispatcher's write behind a window that has closed (R208) -/

/-- Context 0 holds a dirty slot of page 0, which is mapped and in no window, and behind which a dispatcher's write of one
byte still stands, as it does once the held commit before it is gone with its context. The writeback of the slot replays
the write first. `b` are the bytes of the scratchpads. -/
def replayState (c : Ctx) (b : Memory) : State :=
  { tlb := [(0, [(0, 3)])], migHeld := [⟨.jcb 0 0 0 [1], 0⟩], spad := { bytes := b }
    ctxs := [(0, { c with probe := { nslot := 1, slots := [(0, { st := .valid, dirty := 1 })] } })] }

/-- The byte at key 0 of global memory after a step. -/
def byteAfter : Host.Outcome State Fault Refusal → Option Byte
  | .next t => some (tget 0 0 t.dram.bytes)
  | _ => none

/-- No instruction that replays the write leaves global memory as it was. -/
theorem dram_ne_of_replay {i : Instr} {c : Ctx} {b : Memory} {t : State} (h : byteAfter (exec i (replayState c b)) = some 1)
    (ht : exec i (replayState c b) = .next t) : t.dram ≠ (replayState c b).dram := by
  intro hd
  rw [ht, byteAfter, hd] at h
  exact absurd (Option.some.inj h) (by decide : (0 : Byte) ≠ 1)

theorem noAcquire_replayState (c : Ctx) (b : Memory) : NoAcquire (replayState c b) := fun _ hm => nomatch hm

/-! ## What replays it: a partial release, and acquires (R221, R223) -/

theorem stashd_replays : byteAfter (exec (.stashd 0 0 0) (replayState {} [(9, 1)])) = some 1 := by decide +kernel

theorem waitvis_replays : byteAfter (exec .waitvis (replayState { share := { held := true } } [])) = some 1 := by
  decide +kernel

theorem cwait_replays :
    byteAfter (exec (.cwait 0 0) (replayState { colls := [(0, { st := 2, ranges := [(0, 256)] })] } [])) = some 1 := by
  decide +kernel

/-! ## The obligations -/

/-- Refutes O30: the partial release of a STASHD of 256 bytes at address 0 writes the dirty slot back, and global memory
changes by the dispatcher's write that it replays. -/
theorem not_stashCommands : ¬ Obligations.StashCommands := by
  unfold Obligations.StashCommands
  intro h
  obtain ⟨-, -, hd, -⟩ := h (replayState {} [(9, 1)]) 0 0 0 0 false false false (by decide +kernel)
    (noAcquire_replayState _ _)
  obtain ⟨t, ht, -, -, -, ⟨-, hdram, -⟩, -⟩ := hd (by decide +kernel) (by decide +kernel)
  exact dram_ne_of_replay stashd_replays ht (hdram.trans (flush_dram _))

/-- Refutes O32: the acquire of a WAITVIS writes the dirty slot back, and global memory changes by the dispatcher's write
that it replays. -/
theorem not_taskInstructions : ¬ Obligations.TaskInstructions := by
  unfold Obligations.TaskInstructions
  intro h
  obtain ⟨-, -, -, -, hw, -⟩ := h (replayState { share := { held := true } } []) 0 0 0 0 false false 0 0
  obtain ⟨t, ht, ⟨-, hdram, -⟩, -⟩ := hw rfl (by decide +kernel)
  exact dram_ne_of_replay waitvis_replays ht hdram

/-- Refutes O41: the acquire of a CWAIT of an ended slot writes the dirty slot back, and global memory changes by the
dispatcher's write that it replays. -/
theorem not_collectives : ¬ Obligations.Collectives := by
  unfold Obligations.Collectives
  intro h
  have d : CollDesc := { op := 0, ty := .f32, ring := 0, seq := 0, src := 0, dst := 0, count := 0, e := 0, shard := false }
  obtain ⟨-, -, -, -, hc, -⟩ := h (replayState { colls := [(0, { st := 2, ranges := [(0, 256)] })] } []) 0 0 0 0 0 0 0 d d
    0 0 0 0 [] []
  obtain ⟨t, ht, -, -, hdram, -⟩ := hc (by decide) (by decide)
  exact dram_ne_of_replay cwait_replays ht hdram

end Sys2Proof.Machine

/-! SUPPORT. The obligation O42: ROUTE and RSTAT at issue (R306, R308, R310). -/

namespace Sys2Proof.Machine

/-! ## Replies that engines send (R256) -/

/-- A reply sent to a register of the issuing context: it stands last among the replies, and the register waits. -/
theorem reply_me (s : State) (rd : XReg) (v : Word) : (s.reply rd v).me =
    { s.me with replies := s.me.replies ++ [(rd, v)], xwait := s.me.xwait ++ if rd = 0 then [] else [rd] } := by
  rw [State.reply, awaitX_me, State.me_mapMe]

theorem onlyCtx_reply (s : State) (rd : XReg) (v : Word) : OnlyCtx s (s.reply rd v) s.iss.key := by
  unfold State.reply State.awaitX
  exact onlyCtx_trans (onlyCtx_mapMe s _) (onlyCtx_mapMe _ _)

/-! ## ROUTE (R306, R308) -/

theorem flush_starts (s : State) : s.flush.starts = s.starts := by rw [(flush_only s).1]

/-- ROUTE, where its checks find no fault and no acquire is awaited, takes its effect on the rows as the earlier fused
accesses leave them. -/
theorem exec_route (s : State) (base : XReg) (off : BitVec 32) (hf : s.flush.routeFault (s.ea base off) = none)
    (hq : NoAcquire s) : exec (.route base off) s = .next (({ s.flush with starts := s.starts + 1 } : State).mapMe fun c =>
      ({ c with route := { busy := true } } : Ctx).setJob
        (s.flush.routeJob s.myCore (s.flush.block64At s.myCore (s.ea base off))).settle) := by
  rw [← flush_starts, ← flush_myCore, ← flush_ea]
  rw [← flush_ea] at hf
  exact onRow_run _ s hf rfl rfl rfl hq rfl

/-- A job put into a context whose counts are zero. -/
theorem setJob_fresh (c : Ctx) (x : RouteJob × Nat) : ({ c with route := { busy := true } } : Ctx).setJob x =
    { c with job := some x.1, route := { busy := true, dropped := x.2 } } := by
  unfold Ctx.setJob
  rw [Nat.zero_add]

/-! ## RSTAT (R310) -/

theorem exec_rstat (s : State) (rd : XReg) (sel : BitVec 10) : exec (.rstat rd sel) s = .next ((semRstat rd sel).eff s) := rfl

/-- The word that RSTAT reads of the context's own routing. -/
def RouteStat.field (r : RouteStat) : Nat → Word
  | 0 => r.word
  | 1 => Machine.word r.first
  | 2 => Machine.word r.second
  | 3 => Machine.word r.dropped
  | i => Machine.word (tget 0 (i - 16) r.sent)

/-- A selector below 256 reads the context's own counts at once. -/
theorem rstat_own (s : State) (rd : XReg) (sel : BitVec 10) (h : sel.toNat < 256) :
    ToX (.rstat rd sel) s rd (s.me.route.field sel.toNat) := by
  refine ⟨s.wx rd (s.me.route.field sel.toNat), (exec_rstat s rd sel).trans (congrArg _ ((if_pos h).trans ?_)),
    writesX_wx s rd _⟩
  generalize sel.toNat = i
  rcases i with _ | _ | _ | _ | i <;> rfl

theorem field_zero (r : RouteStat) : r.field 0 = BitVec.ofNat 64 ((if r.busy then 1 else 0) + (if r.done then 2 else 0) +
    (if r.err then 4 else 0) + 65536 * ((r.first + r.second) % 2048)) := by
  unfold RouteStat.field RouteStat.word
  cases r.busy <;> cases r.done <;> cases r.err <;> rfl

theorem field_sent (r : RouteStat) (d : Nat) : r.field (16 + d) = BitVec.ofNat 64 (tget 0 d r.sent) := by
  have h : r.field (d + 16) = BitVec.ofNat 64 (tget 0 (d + 16 - 16) r.sent) := rfl
  rw [Nat.add_comm, h, Nat.add_sub_cancel]

/-- A selector from 256 on asks the IOD for the COUNT of a local expert; one from 512 on clears it. -/
theorem rstat_expert (s : State) (rd : XReg) (sel : BitVec 10) (h : 256 ≤ sel.toNat) :
    exec (.rstat rd sel) s = .next (if sel.toNat < 512 then s.reply rd (word (s.expert (sel.toNat % 256)).count)
      else { s.reply rd (word (s.expert (sel.toNat % 256)).count) with
        experts := tput {} (sel.toNat % 256) { s.expert (sel.toNat % 256) with count := 0 } s.experts }) :=
  (exec_rstat s rd sel).trans (congrArg _ (if_neg (Nat.not_lt.2 h)))

/-- The experts after the COUNT of one is cleared. -/
theorem expert_of_cleared {s t : State} {x : Nat} (h : t.experts = tput {} x { s.expert x with count := 0 } s.experts)
    (y : Nat) : t.expert y = if y = x then { s.expert y with count := 0 } else s.expert y := by
  unfold State.expert at *
  rw [h, tget_tput]
  split
  · next hy => rw [hy]
  · rfl

/-- Settles O42: ROUTE by its effect on the context, RSTAT by what each range of selectors reads or asks for. -/
theorem routeInstructions : Obligations.RouteInstructions := by
  unfold Obligations.RouteInstructions
  intro s rd base off sel d ea z j r i asks
  have own : ∀ n v, n < 256 → r.field n = v → i = n → ToX (.rstat rd sel) s rd v := by
    rintro n v hn rfl rfl
    exact rstat_own s rd sel hn
  refine ⟨fun hf hq => ⟨_, exec_route s base off hf hq, ?_, ?_⟩, own 0 _ (by decide) (field_zero r),
    own 1 _ (by decide) rfl, own 2 _ (by decide) rfl, own 3 _ (by decide) rfl,
    fun hi hd => own _ _ (by omega) (field_sent r d) hi, fun hlo hhi => ?_, fun hlo => ?_⟩
  · rw [← flush_iss s]
    exact onlyCtx_mapMe _ _
  · rw [State.me_mapMe, setJob_fresh]
    rfl
  · refine ⟨_, rstat_expert s rd sel hlo, ?_⟩
    rw [if_pos hhi]
    exact ⟨⟨rfl, (onlyCtx_reply s rd _).2, reply_me s rd _⟩, rfl⟩
  · refine ⟨_, rstat_expert s rd sel (by omega), ?_⟩
    rw [if_neg (Nat.not_lt.2 hlo)]
    exact ⟨⟨rfl, (onlyCtx_reply s rd _).2, reply_me s rd _⟩, fun x => expert_of_cleared rfl x⟩

end Sys2Proof.Machine

/-! SUPPORT. The obligation O45: SQSUB behind a store that its context has issued to another core's row (R176, R211, R321). -/

namespace Sys2Proof.Machine

/-! ## A store that waits, and a probe slot of another context on its row (R176, R211) -/

/-- Cluster 0 is fused, and row 0 of core 0 holds the header of a query on handle 0. Context 0 has issued a store of a byte
to row 1 of the extent, which is row 0 of core 1; context 1 of the core holds a probe set of that one row. -/
def pendingStore : State :=
  { spad := { bytes := [(2, 1), (3, 1), (4, 1), (6, 1), (8, 1), (12, 2)], fused := [(0, true)] }
    ctxs := [(0, { acc := 1, fused := [{ num := 0, core := 1, row := 0, kind := .store 1 0 }] }),
      (1, { probe := { srow := 1, nslot := 1 } })] }

/-- The dirty bytes of slot 0 of context 1's probe set after a step. -/
def dirtyAfter : Host.Outcome State Fault Refusal → Option Row256
  | .next t => some ((t.ctx 1).probe.slot 0).dirty
  | _ => none

/-- The store, performed before SQSUB reads its header, sets its byte dirty in the slot of context 1. -/
theorem sqsub_dirties_other : dirtyAfter (exec (.sqsub 0 0 0) pendingStore) = some 1 := by decide +kernel

/-- Refutes O45: of the contexts other than its own, SQSUB on a FREE handle is to leave each as it stood before the earlier
fused accesses; the store of `pendingStore` changes the dirty mask of context 1. -/
theorem not_searchInstructions : ¬ Obligations.SearchInstructions := by
  unfold Obligations.SearchInstructions
  intro h
  have q : Query := queryOf 0 0 0 none
  obtain ⟨-, -, -, -, hsub, -⟩ := h pendingStore 0 0 0 0 0 q 0
  obtain ⟨t, ht, -, hother, -⟩ := hsub (by decide +kernel) (by decide +kernel) (fun _ hm => nomatch hm)
  have hdirty := sqsub_dirties_other
  rw [ht, dirtyAfter, hother 1 (by decide)] at hdirty
  exact absurd hdirty (by decide +kernel)

end Sys2Proof.Machine

/-! SUPPORT. The obligation O56: a step that issues a bundle of one instruction (R33, R40 to R46, R88, R91, R97). -/

namespace Sys2Proof.Machine

/-! ## Slot instructions and their meanings -/

/-- Every slot instruction is executed by the meaning that the issue of a bundle uses. -/
theorem exec_eq_run (i : Instr) (s : State) (h : isEvent i = false) : exec i s = (semOf i).run s := by
  cases i <;> cases h <;> rfl

/-! ## Lists of slots in which all but one hold NOP (R34, R41) -/

section Lone

variable {a b : List (SlotId × Sem)} {e : SlotId × Sem}

/-- Every slot of a list means NOP. -/
def AllNop (l : List (SlotId × Sem)) : Prop := ∀ f ∈ l, f.2 = semNop

theorem allNop_nil : AllNop [] := fun _ hf => nomatch hf

theorem foldl_allNop (g : State → SlotId × Sem → State) (hg : ∀ s f, f.2 = semNop → g s f = s) (ha : AllNop a)
    (s : State) : a.foldl g s = s := by
  induction a with
  | nil => rfl
  | cons f r ih =>
    rw [List.foldl_cons, hg s f (ha f (by simp))]
    exact ih fun x hx => ha x (by simp [hx])

/-- What every NOP leaves alone, the lone slot does. -/
theorem foldl_lone (g : State → SlotId × Sem → State) (hg : ∀ s f, f.2 = semNop → g s f = s) (ha : AllNop a)
    (hb : AllNop b) (s : State) : (a ++ e :: b).foldl g s = g s e := by
  rw [List.foldl_append, List.foldl_cons, foldl_allNop g hg ha, foldl_allNop g hg hb]

theorem flatMap_allNop {β : Type} (g : SlotId × Sem → List β) (hg : ∀ f, f.2 = semNop → g f = []) (ha : AllNop a) :
    a.flatMap g = [] := List.flatMap_eq_nil_iff.2 fun f hf => hg f (ha f hf)

theorem flatMap_lone {β : Type} (g : SlotId × Sem → List β) (hg : ∀ f, f.2 = semNop → g f = []) (ha : AllNop a)
    (hb : AllNop b) : (a ++ e :: b).flatMap g = g e := by
  rw [List.flatMap_append, List.flatMap_cons, flatMap_allNop g hg ha, flatMap_allNop g hg hb, List.append_nil,
    List.nil_append]

theorem findSome_allNop {β : Type} (g : SlotId × Sem → Option β) (hg : ∀ f, f.2 = semNop → g f = none) (ha : AllNop a) :
    a.findSome? g = none := List.findSome?_eq_none_iff.2 fun f hf => hg f (ha f hf)

theorem findSome_lone {β : Type} (g : SlotId × Sem → Option β) (hg : ∀ f, f.2 = semNop → g f = none) (ha : AllNop a)
    (hb : AllNop b) : (a ++ e :: b).findSome? g = g e := by
  rw [List.findSome?_append, List.findSome?_cons, findSome_allNop g hg ha, findSome_allNop g hg hb]
  cases g e <;> rfl

/-! ## The evaluation of a bundle with one instruction (R41, R42, R46) -/

theorem slotFault_nop (s : State) (l : List (SlotId × Sem)) (f : SlotId × Sem) (h : f.2 = semNop) :
    s.slotFault l f = none := by
  unfold State.slotFault
  rw [h]
  rfl

/-- The lone slot is checked on the state as it stands: a NOP leaves the X slot nothing to see. -/
theorem slotFault_lone (s : State) (ha : AllNop a) (hb : AllNop b) : s.slotFault (a ++ e :: b) e = e.2.fault s := by
  unfold State.slotFault
  by_cases hx : e.1 = .X
  · have hrest : (a ++ e :: b).filter (fun f => f.1 != .X) = (a ++ b).filter fun f => f.1 != .X := by
      simp [List.filter_append, hx]
    rw [if_pos hx, hrest, foldl_allNop]
    · intro u f hf
      rw [hf]
      rfl
    · intro f hf
      exact (List.mem_append.1 (List.mem_filter.1 hf).1).elim (ha f) (hb f)
  · rw [if_neg hx]

theorem hold_lone (s : State) (ha : AllNop a) (hb : AllNop b) : (a ++ e :: b).any (fun f => f.2.hold s) = e.2.hold s := by
  have nops : ∀ {l}, AllNop l → l.any (fun f => f.2.hold s) = false := fun hl =>
    List.any_eq_false.2 fun f hf => by rw [hl f hf]; exact Bool.false_ne_true
  rw [List.any_append, List.any_cons, nops ha, nops hb, Bool.or_false, Bool.false_or]

/-- The traps of a list of slots, and the slots without one. -/
def State.faultsOf (s : State) (l : List (SlotId × Sem)) : List (SlotId × TrapInfo) :=
  l.filterMap fun e => (s.slotFault l e).map fun t => (e.1, t)

theorem faults_lone (s : State) (ha : AllNop a) (hb : AllNop b) :
    s.faultsOf (a ++ e :: b) = ((e.2.fault s).map fun t => (e.1, t)).toList := by
  have nops : ∀ {l}, AllNop l → l.filterMap (fun f => (s.slotFault (a ++ e :: b) f).map fun t => (f.1, t)) = [] := fun hl =>
    List.filterMap_eq_nil_iff.2 fun f hf => by rw [slotFault_nop s _ f (hl f hf)]; rfl
  rw [State.faultsOf, List.filterMap_append, List.filterMap_cons, nops ha, nops hb, slotFault_lone s ha hb]
  cases e.2.fault s <;> rfl

/-- The slots that do not fault are the list itself, or the NOPs. -/
theorem filter_faultless (s : State) (ha : AllNop a) (hb : AllNop b) :
    (a ++ e :: b).filter (fun f => (s.slotFault (a ++ e :: b) f).isNone) =
      if (e.2.fault s).isNone then a ++ e :: b else a ++ b := by
  have nops : ∀ {l}, AllNop l → l.filter (fun f => (s.slotFault (a ++ e :: b) f).isNone) = l := fun hl =>
    List.filter_eq_self.2 fun f hf => by rw [slotFault_nop s _ f (hl f hf)]; rfl
  rw [List.filter_append, List.filter_cons, nops ha, nops hb, slotFault_lone s ha hb]
  split <;> rfl

theorem block_nop (s : State) (f : SlotId × Sem) (h : f.2 = semNop) : f.2.block s = [] := by rw [h]; rfl

theorem slotMask_one (x : SlotId) : slotMask [x] = 2 ^ x.bit := by cases x <;> rfl

/-- A lone slot that waits for an acquire changes nothing (R186). -/
theorem evaluate_holds (s : State) (ha : AllNop a) (hb : AllNop b) (hh : e.2.hold s = true) :
    s.evaluate (a ++ e :: b) = s := by
  unfold State.evaluate
  dsimp only
  rw [if_pos ((hold_lone s ha hb).trans hh)]

theorem allNop_filter (p : SlotId × Sem → Bool) (ha : AllNop a) : AllNop (a.filter p) :=
  fun f hf => ha f (List.mem_filter.1 hf).1

theorem allNop_append (ha : AllNop a) (hb : AllNop b) : AllNop (a ++ b) :=
  fun f hf => (List.mem_append.1 hf).elim (ha f) (hb f)

/-- A lone slot that faults traps, and its mask names that slot (R46). -/
theorem evaluate_faults (s : State) (ha : AllNop a) (hb : AllNop b) (t : TrapInfo) (hh : e.2.hold s = false)
    (hf : e.2.fault s = some t) : s.evaluate (a ++ e :: b) = issueTrap t (2 ^ e.1.bit) s := by
  have hab := allNop_append ha hb
  have hfaults := faults_lone (e := e) s ha hb
  have hok := filter_faultless (e := e) s ha hb
  rw [hf] at hfaults hok
  unfold State.faultsOf at hfaults
  unfold State.evaluate
  dsimp only
  rw [hold_lone s ha hb, hh, hfaults, hok]
  simp only [Option.isNone_some, Option.map_some, Option.toList_some, Bool.false_eq_true, if_false,
    flatMap_allNop _ (block_nop s) hab, flatMap_allNop _ (block_nop s) (allNop_filter _ hab), List.isEmpty_nil,
    List.isEmpty_cons, Bool.not_true, Bool.not_false, Bool.and_true, if_true, List.map_cons, List.map_nil, slotMask_one]

/-- A lone slot that meets no trap and no wait, and whose messages find room, has its effect (R40, R183). -/
theorem evaluate_completes (s : State) (ha : AllNop a) (hb : AllNop b) (hh : e.2.hold s = false) (hf : e.2.fault s = none)
    (hi : e.2.instead s = none) (hv : e.2.arrive s = s) (hk : e.2.block s = []) (hs : e.2.stall s = none)
    (hroom : s.sendStall (a ++ e :: b) = none) : s.evaluate (a ++ e :: b) = e.2.eff (s.commitSlots []) := by
  have hfaults := faults_lone (e := e) s ha hb
  have hok := filter_faultless (e := e) s ha hb
  rw [hf] at hfaults hok
  unfold State.faultsOf at hfaults
  have hblock : (a ++ e :: b).flatMap (fun f => f.2.block s) = [] := by rw [flatMap_lone _ (block_nop s) ha hb, hk]
  have hblockA : ((a ++ e :: b).filter fun f => f.1 != .X).flatMap (fun f => f.2.block s) = [] :=
    List.flatMap_eq_nil_iff.2 fun f hf => List.flatMap_eq_nil_iff.1 hblock f (List.mem_filter.1 hf).1
  have hinstead : (a ++ e :: b).findSome? (fun f => f.2.instead s) = none := by
    rw [findSome_lone _ (fun f h => by rw [h]; rfl) ha hb, hi]
  have harrive : (a ++ e :: b).foldl (fun s f => f.2.arrive s) s = s := by
    rw [foldl_lone _ (fun u f h => by rw [h]; rfl) ha hb, hv]
  have hstall : (a ++ e :: b).findSome? (fun f => f.2.stall s) = none := by
    rw [findSome_lone _ (fun f h => by rw [h]; rfl) ha hb, hs]
  have hcommit : s.commitSlots (a ++ e :: b) = e.2.eff (s.commitSlots []) :=
    foldl_lone (fun s f => f.2.eff s) (fun u f h => by rw [h]; rfl) ha hb _
  unfold State.evaluate
  dsimp only
  rw [hold_lone s ha hb, hh, hfaults, hok]
  simp only [Option.isNone_none, Option.map_none, Option.toList_none, Bool.false_eq_true, if_true, if_false, hblock, hblockA,
    List.isEmpty_nil, Bool.not_true, Bool.false_and, hinstead, harrive, hstall, hroom, Option.or_none, hcommit]

/-- A lone slot that blocks parks on its conditions (R41). -/
theorem evaluate_parks (s : State) (ha : AllNop a) (hb : AllNop b) (hh : e.2.hold s = false) (hf : e.2.fault s = none)
    (hi : e.2.instead s = none) (hv : e.2.arrive s = s) (hk : e.2.block s ≠ []) :
    s.evaluate (a ++ e :: b) = (e.2.onPark s).park s.iss.key (e.2.block s) := by
  have hfaults := faults_lone (e := e) s ha hb
  have hok := filter_faultless (e := e) s ha hb
  rw [hf] at hfaults hok
  unfold State.faultsOf at hfaults
  have hblock := flatMap_lone (e := e) _ (block_nop s) ha hb
  have hinstead : (a ++ e :: b).findSome? (fun f => f.2.instead s) = none := by
    rw [findSome_lone _ (fun f h => by rw [h]; rfl) ha hb, hi]
  have harrive : (a ++ e :: b).foldl (fun s f => f.2.arrive s) s = s := by
    rw [foldl_lone _ (fun u f h => by rw [h]; rfl) ha hb, hv]
  have hpark : (a ++ e :: b).foldl (fun s f => f.2.onPark s) s = e.2.onPark s :=
    foldl_lone _ (fun u f h => by rw [h]; rfl) ha hb s
  unfold State.evaluate
  dsimp only
  rw [hold_lone s ha hb, hh, hfaults, hok]
  simp only [Option.isNone_none, Option.map_none, Option.toList_none, Bool.false_eq_true, if_true, if_false, hblock,
    List.isEmpty_nil, Bool.not_true, Bool.false_and, hinstead, harrive, hpark, List.isEmpty_eq_false_iff.2 hk, Bool.not_false,
    ite_self]

theorem sends_allNop (s : State) (ha : AllNop a) (n : Nat) : a.foldl (fun n f => n + f.2.sends s) n = n := by
  induction a generalizing n with
  | nil => rfl
  | cons f r ih =>
    rw [List.foldl_cons, ha f (by simp)]
    exact ih (fun x hx => ha x (by simp [hx])) n

/-- The messages of the bundle are those of its lone slot. -/
theorem sendStall_lone (s : State) (ha : AllNop a) (hb : AllNop b) : s.sendStall (a ++ e :: b) = s.sendStall [e] := by
  unfold State.sendStall
  rw [List.foldl_append, List.foldl_cons, sends_allNop s ha, sends_allNop s hb]
  rfl

/-- A bundle without an instruction that is enabled only moves the PC on (R33, R34). -/
theorem evaluate_allNop (s : State) (ha : AllNop a) : s.evaluate a = s.commitSlots [] := by
  cases a with
  | nil => rfl
  | cons f r =>
    have hf : f.2 = semNop := ha f (by simp)
    have hr : AllNop r := fun x hx => ha x (by simp [hx])
    have h := evaluate_completes (a := []) (e := f) (b := r) s allNop_nil hr
    rw [hf] at h
    refine h rfl rfl rfl rfl rfl rfl ?_
    rw [sendStall_lone s allNop_nil hr, State.sendStall]
    simp [hf, semNop]

end Lone

end Sys2Proof.Machine

namespace Sys2Proof.Machine

/-! ## What an issue looks at before its bundle, and the passing of clk leaves (R91, R97, R192, R208, R341) -/

/-- From `s` to `t` clk have passed, or the issue of a bundle has begun: of the contexts the eligible slots of streams and
the mark of a wake may differ, of the cores the marks of their issue, and of the rest the clk, the schedule and the data
rates. -/
structure IssueFrame (s t : State) : Prop where
  rest : t = { s with
    clk := t.clk, agenda := t.agenda, ctxs := t.ctxs, cores := t.cores, rates := t.rates
    ctl := { s.ctl with ratestat := t.ctl.ratestat } }
  ctx : ∀ j, t.ctx j = { s.ctx j with streams := (t.ctx j).streams, waking := (t.ctx j).waking }
  stream : ∀ j sn, (t.ctx j).stream sn = { (s.ctx j).stream sn with elig := ((t.ctx j).stream sn).elig }
  hasIn : ∀ j, (t.ctx j).hasIn = (s.ctx j).hasIn
  core : ∀ n, t.core n = { s.core n with
    woke := (t.core n).woke, evaled := (t.core n).evaled, nextIssue := (t.core n).nextIssue }

theorem issueFrame_trans {s t u : State} (h : IssueFrame s t) (g : IssueFrame t u) : IssueFrame s u where
  rest := by rw [g.rest, h.rest]
  ctx j := by rw [g.ctx, h.ctx]
  stream j sn := by rw [g.stream, h.stream]
  hasIn j := by rw [g.hasIn, h.hasIn]
  core n := by rw [g.core, h.core]

section
variable {s t : State} (h : IssueFrame s t)
include h

theorem fetch_issueFrame (k : CtxKey) : t.fetch k = s.fetch k := by
  have hcode : ∀ pc, t.codeWord (keyCore k) pc = s.codeWord (keyCore k) pc := fun pc => by
    unfold State.codeWord
    rw [h.core]
  have hneed : ∀ pc e, t.needBlock k pc e = s.needBlock k pc e := fun pc e => by
    unfold State.needBlock
    rw [h.ctx]
  have hentries : t.entries k = s.entries k := by
    unfold State.entries State.die
    rw [h.ctx, h.core, h.rest]
  have hpc : (t.ctx k).pc = (s.ctx k).pc := by rw [h.ctx]
  have hfresh : t.fresh = s.fresh := by rw [h.rest]
  unfold State.fetch
  simp only [hcode, hneed, hentries, hpc, hfresh]

theorem pte_issueFrame (u va : Nat) : t.pte u va = s.pte u va := by
  unfold State.pte State.walk State.lpWord
  rw [h.rest]

theorem pageMig_issueFrame (u page : Nat) : t.pageMig u page = s.pageMig u page := by
  have hopen : t.migOpen = s.migOpen := by rw [h.rest]
  unfold State.pageMig
  rw [pte_issueFrame h, hopen]

theorem heldLive_issueFrame (w : HeldWrite) : t.heldLive w = s.heldLive w := by
  unfold State.heldLive
  cases w.src with
  | commit k | writeback k | amog k | coll k => dsimp only; rw [h.ctx k]
  | drain k sn => dsimp only; rw [h.stream k sn]
  | scatter k => dsimp only; rw [h.core (keyCore k)]
  | copy | entry | peer | host => dsimp only [State.die]; rw [h.rest]
  | jcb => rfl

theorem migWaits_issueFrame (k : CtxKey) : t.migWaits k = s.migWaits k := by
  have hheld : t.migHeld = s.migHeld := by rw [h.rest]
  unfold State.migWaits
  simp only [hheld, heldLive_issueFrame h, pageMig_issueFrame h]

theorem trapDue_issueFrame (k : CtxKey) (clk : Nat) : (t.ctx k).trapDue clk = (s.ctx k).trapDue clk := by
  unfold Ctx.trapDue Ctx.overrunDue Ctx.stopDue
  rw [h.hasIn, h.ctx]

end

/-- Where no trap is due, none is taken at the boundary (R341). -/
theorem takePending_none (s : State) (k : CtxKey) (h : (s.ctx k).trapDue s.clk = false) : s.takePending k = none := by
  unfold Ctx.trapDue at h
  unfold State.takePending
  dsimp only
  cases hsys : (s.ctx k).sys with
  | true => rfl
  | false =>
    simp only [hsys, Bool.not_false, Bool.true_and, Bool.or_eq_false_iff, Bool.not_eq_eq_eq_not, List.isEmpty_iff] at h
    obtain ⟨⟨hpend, hover⟩, hstop⟩ := h
    simp only [hpend, firstFault, hover, hstop, Bool.false_eq_true, if_false]

/-! ## The passing of clk (R192, R361) -/

/-- An entry of a table of which every value is changed by its key. -/
theorem tget_map_entry {α β : Type} (f : Nat → α → β) (d : α) (k : Nat) (t : Tab α) :
    tget (f k d) k (t.map fun e => (e.1, f e.1 e.2)) = f k (tget d k t) := by
  induction t with
  | nil => rfl
  | cons e r ih =>
    rw [List.map_cons, tget_cons, tget_cons]
    by_cases he : e.1 = k
    · rw [if_pos he, if_pos he, he]
    · rw [if_neg he, if_neg he, ih]

/-- A stream with the slots that have become eligible noted. -/
def Stream.noteElig (x : Stream) (s : State) (k : CtxKey) : Stream := { x with elig := x.elig ++ s.newElig k x }

/-- The same for the streams of a context. -/
def Ctx.noteElig (c : Ctx) (s : State) (k : CtxKey) : Ctx :=
  { c with streams := c.streams.map fun f => (f.1, f.2.noteElig s k) }

theorem noteElig_ctx (s : State) (j : CtxKey) : s.noteElig.ctx j = (s.ctx j).noteElig s j := by
  have h := tget_map_entry (fun i c => Ctx.noteElig c s (BitVec.ofNat 14 i)) {} j.toNat s.ctxs
  rwa [BitVec.ofNat_toNat, BitVec.setWidth_eq] at h

theorem noteElig_stream (c : Ctx) (s : State) (k : CtxKey) (sn : SReg) :
    (c.noteElig s k).stream sn = (c.stream sn).noteElig s k :=
  tget_map_entry (fun _ x => Stream.noteElig x s k) {} sn.toNat c.streams

theorem noteElig_hasIn (c : Ctx) (s : State) (k : CtxKey) : (c.noteElig s k).hasIn = c.hasIn := by
  unfold Ctx.hasIn Ctx.noteElig
  rw [List.any_map]
  rfl

theorem tick_ctx (s : State) (n : Nat) (j : CtxKey) : (s.tick n).ctx j = (s.ctx j).noteElig s j := by
  unfold State.tick
  rw [forceRates_only]
  exact noteElig_ctx s j

theorem tick_core (s : State) (n : Nat) (m : CoreNo) : (s.tick n).core m = s.core m := by
  unfold State.tick
  rw [forceRates_only]
  rfl

theorem tick_issueFrame (s : State) (n : Nat) : IssueFrame s (s.tick n) where
  rest := by
    unfold State.tick
    rw [forceRates_only]
    rfl
  ctx j := by rw [tick_ctx]; rfl
  stream j sn := by rw [tick_ctx, noteElig_stream]; rfl
  hasIn j := by rw [tick_ctx, noteElig_hasIn]
  core m := by rw [tick_core]

theorem tick_clk (s : State) (n : Nat) : (s.tick n).clk = s.clk + n := by
  unfold State.tick
  rw [forceRates_only]

/-! ## The beginning of an issue (R97) -/

/-- A core that evaluates the bundle of a context on this clk. -/
def State.markIssue (s : State) (n : CoreNo) (k : CtxKey) : State :=
  s.mapCore n fun co => { co with woke := none, evaled := some (s.clk, keyCtx k), nextIssue := s.clk + 1 }

/-- The state in which it begins to evaluate the bundle of a context that samples nothing. -/
def State.beginIssue (s : State) (n : CoreNo) (k : CtxKey) : State :=
  (s.markIssue n k).mapCtx k fun c => { c with waking := false }

theorem beginIssue_issueFrame (s : State) (n : CoreNo) (k : CtxKey) : IssueFrame s (s.beginIssue n k) := by
  have hctx : ∀ j, (s.beginIssue n k).ctx j = if j = k then { s.ctx k with waking := false } else s.ctx j :=
    fun j => State.ctx_mapCtx _ k j _
  have hcore : ∀ m, (s.beginIssue n k).core m =
      if m = n then { s.core n with woke := none, evaled := some (s.clk, keyCtx k), nextIssue := s.clk + 1 } else s.core m :=
    fun m => by
      unfold State.beginIssue State.markIssue
      rw [State.core_mapCtx, State.core_mapCore]
  refine ⟨rfl, fun j => ?_, fun j sn => ?_, fun j => ?_, fun m => ?_⟩
  · rw [hctx]
    split
    · next hj => rw [hj]
    · rfl
  · rw [hctx]
    split
    · next hj => rw [hj]; rfl
    · rfl
  · rw [hctx]
    split
    · next hj => rw [hj]; rfl
    · rfl
  · rw [hcore]
    split
    · next hm => rw [hm]
    · rfl

theorem mkKey_keyCore_keyCtx (k : CtxKey) : mkKey (keyCore k) (keyCtx k) = k := by
  unfold mkKey keyCore keyCtx
  refine BitVec.eq_of_toNat_eq ?_
  have hk := k.isLt
  simp only [BitVec.toNat_ofNat]
  omega

/-- A core whose current context is ready, and which may issue, gives it its turn (R97, R356). -/
theorem exec_bundleIssue (s : State) (k : CtxKey) (hcur : (s.core (keyCore k)).cur = some (keyCtx k))
    (hnext : (s.core (keyCore k)).nextIssue ≤ s.clk) (hrun : (s.ctx k).run = .ready) (hduty : 64 ≤ s.duty) :
    exec (.bundleIssue (keyCore k)) s = .next ((s.markIssue (keyCore k) k).turn k) := by
  show execBundleIssue (keyCore k) s = _
  have hmay : s.mayIssue (s.core (keyCore k)) = true := by
    unfold State.mayIssue
    rw [decide_eq_true hduty, Bool.true_or]
  unfold execBundleIssue
  simp only [hcur, mkKey_keyCore_keyCtx, hrun, hmay, Nat.not_lt.2 hnext]
  rfl

/-- A context at its boundary that samples nothing, takes no trap and is held by no window fetches its bundle. -/
theorem turn_fetches (s : State) (n : CoreNo) (k : CtxKey) (hwake : (s.ctx k).waking = false)
    (htrap : (s.ctx k).trapDue s.clk = false) (hmig : s.migWaits k = false) :
    (s.markIssue n k).turn k = (s.beginIssue n k).fetchTurn k := by
  have hframe := beginIssue_issueFrame s n k
  have hpend : (s.beginIssue n k).takePending k = none :=
    takePending_none _ k ((trapDue_issueFrame hframe k s.clk).trans htrap)
  have hheld : (s.beginIssue n k).migWaits k = false := (migWaits_issueFrame hframe k).trans hmig
  unfold State.turn
  rw [show ((s.markIssue n k).ctx k).waking = false from hwake, Bool.false_and, if_neg Bool.false_ne_true]
  unfold State.beginIssue at *
  simp only [hpend, hheld, Bool.false_eq_true, if_false]

/-- A block of code that is not resident: the context waits for it, and neither a register nor a memory changes (R91). -/
theorem fetchTurn_waits (s : State) (k : CtxKey) (w : Nat) (h : s.fetch k = .wait w) : s.fetchTurn k = s.fetchWait k w := by
  unfold State.fetchTurn
  rw [h]

theorem fetchWait_keeps (s : State) (k : CtxKey) (w : Nat) : KeepsData s (s.fetchWait k w) ∧
    ((s.fetchWait k w).ctx k).run = .fetchWait w ∧ ((s.fetchWait k w).ctx k).pc = (s.ctx k).pc := by
  have hctx : ∀ j, (s.fetchWait k w).ctx j = if j = k then { s.ctx k with run := .fetchWait w } else s.ctx j := fun j => by
    unfold State.fetchWait State.leave
    dsimp only
    rw [State.ctx_mapCore, State.ctx_mapCtx]
  refine ⟨⟨fun j => ?_, rfl, rfl⟩, ?_, ?_⟩
  · rw [hctx]
    split
    · next hj => rw [hj]; exact ⟨rfl, rfl, rfl⟩
    · exact ⟨rfl, rfl, rfl⟩
  · rw [hctx, if_pos rfl]
  · rw [hctx, if_pos rfl]

theorem keepsData_issueFrame {s t : State} (h : IssueFrame s t) : KeepsData s t := by
  refine ⟨fun k => ?_, ?_, ?_⟩
  · rw [h.ctx]
    exact ⟨rfl, rfl, rfl⟩
  · rw [h.rest]
  · rw [h.rest]

end Sys2Proof.Machine

namespace Sys2Proof.Machine

/-! ## A trap does not look at the latch (R339) -/

/-- A state with another latch. -/
def State.withIss (s : State) (j : Issue) : State := { s with iss := j }

theorem foldl_withIss {β : Type} (g : State → β → State) (j : Issue)
    (hg : ∀ (s : State) e, g (s.withIss j) e = (g s e).withIss j) (l : List β) (s : State) :
    l.foldl g (s.withIss j) = (l.foldl g s).withIss j := by
  induction l generalizing s with
  | nil => rfl
  | cons e r ih => rw [List.foldl_cons, List.foldl_cons, hg, ih]

theorem ite_withIss (p : Prop) [Decidable p] (s t : State) (j : Issue) :
    (if p then s.withIss j else t.withIss j) = (if p then s else t).withIss j := by split <;> rfl

theorem settleRates_withIss (s : State) (j : Issue) : (s.withIss j).settleRates = s.settleRates.withIss j := by
  refine foldl_withIss _ j (fun u e => ?_) _ s
  cases e.2 with
  | deferred saves until_ since old =>
    exact ite_withIss ((saves.all fun e => !u.saving e.1 e.2) = true)
      (u.setRate e.1 (.retraining (u.clk + retrainClk) since old)) u j
  | idle => rfl
  | retraining => rfl

theorem bubble_withIss (s : State) (j : Issue) (n : CoreNo) (pc : BitVec 55) :
    (s.withIss j).bubble n pc = (s.bubble n pc).withIss j :=
  ite_withIss (s.resident n pc = true) (s.mapCore n fun co => { co with nextIssue := s.clk + 2 }) s j

theorem takeTrap_withIss (s : State) (j : Issue) (k : CtxKey) (t : TrapInfo) (epc : BitVec 55) (m : Nat)
    (eng async : Bool) (held : Option HeldOp) :
    takeTrap k t epc m eng async held (s.withIss j) = (takeTrap k t epc m eng async held s).withIss j := by
  unfold takeTrap
  dsimp only
  rw [← settleRates_withIss, ← bubble_withIss]
  rfl

/-! ## A bundle of one instruction (R33, R39, R41) -/

/-- The slots of a bundle that have been decoded. -/
def okSlots (l : List (SlotId × Except DecodeError Slot)) : List (SlotId × Slot) :=
  l.filterMap fun e => match e.2 with | .error _ => none | .ok x => some (e.1, x)

/-- The slots of a bundle that are reserved. -/
def badSlots (l : List (SlotId × Except DecodeError Slot)) : List SlotId :=
  l.filterMap fun e => match e.2 with | .error _ => some e.1 | .ok _ => none

/-- The six slots of a bundle with one instruction. -/
def loneList (x : SlotId) (sl : Slot) : List (SlotId × Slot) :=
  slotOrder.map fun y => (y, if y = x then sl else ⟨false, 0, .nop⟩)

theorem okSlots_lone (x : SlotId) (sl : Slot) : okSlots (loneSlots x sl) = loneList x sl := rfl

theorem badSlots_lone (x : SlotId) (sl : Slot) : badSlots (loneSlots x sl) = [] := rfl

/-- The slots that a context enables. -/
def enabledOf (c : Ctx) (l : List (SlotId × Slot)) : List (SlotId × Slot) := l.filter fun e => slotEnabled e.2 c

/-- The enabled slots evaluated, or nothing where one of them waits for a reply (R33, R42). -/
def State.runSlots (s : State) (k : CtxKey) (pcn : BitVec 55) (en : List (SlotId × Slot)) : State :=
  if en.any fun e => (s.ctx k).hazard (portsOf e.2.instr) then s
  else ((s.latch k pcn en).evaluate (en.map fun e => (e.1, semOf e.2.instr))).withIss {}

theorem evalBundle_eq (s : State) (k : CtxKey) (b : BitVec 384) (pcn : BitVec 55) : s.evalBundle k b pcn =
    if !(badSlots (decodeBundle b)).isEmpty then
      takeTrap k { code := 2 } (s.ctx k).pc (slotMask (badSlots (decodeBundle b))) false false none s
    else if !(illegalSlots (okSlots (decodeBundle b))).isEmpty then
      takeTrap k { code := 1 } (s.ctx k).pc (slotMask (illegalSlots (okSlots (decodeBundle b)))) false false none s
    else s.runSlots k pcn (enabledOf (s.ctx k) (okSlots (decodeBundle b))) := rfl

theorem evalBundle_lone (s : State) (k : CtxKey) (b : BitVec 384) (pcn : BitVec 55) (x : SlotId) (sl : Slot)
    (hdec : decodeBundle b = loneSlots x sl) (hlegal : illegalSlots (loneList x sl) = []) :
    s.evalBundle k b pcn = s.runSlots k pcn (enabledOf (s.ctx k) (loneList x sl)) := by
  rw [evalBundle_eq, hdec, badSlots_lone, okSlots_lone, hlegal]
  rfl

/-- Every slot of a list holds NOP. -/
def NopSlots (l : List (SlotId × Slot)) : Prop := ∀ f ∈ l, f.2 = ⟨false, 0, .nop⟩

theorem nopSlots_map (l : List SlotId) (x : SlotId) (sl : Slot) (h : x ∉ l) :
    NopSlots (l.map fun y => (y, if y = x then sl else ⟨false, 0, .nop⟩)) := by
  intro f hf
  obtain ⟨y, hy, rfl⟩ := List.mem_map.1 hf
  exact if_neg fun (e : y = x) => h (e ▸ hy)

theorem enabledOf_nopSlots (c : Ctx) (l : List (SlotId × Slot)) (h : NopSlots l) : enabledOf c l = l :=
  List.filter_eq_self.2 fun f hf => by rw [h f hf]; rfl

/-- The enabled slots of such a bundle: the lone one where its guard enables it, among NOPs. -/
theorem enabledOf_lone (c : Ctx) (x : SlotId) (sl : Slot) : ∃ a b, NopSlots a ∧ NopSlots b ∧
    enabledOf c (loneList x sl) = if slotEnabled sl c then a ++ (x, sl) :: b else a ++ b := by
  have hmem : x ∈ slotOrder := by cases x <;> decide
  have hdup : slotOrder.Nodup := by decide
  obtain ⟨p, q, hpq⟩ := List.append_of_mem hmem
  rw [hpq] at hdup
  have hp : x ∉ p := fun h => (List.nodup_append.1 hdup).2.2 x h x (by simp) rfl
  have hq : x ∉ q := (List.nodup_cons.1 (List.nodup_append.1 hdup).2.1).1
  refine ⟨_, _, nopSlots_map p x sl hp, nopSlots_map q x sl hq, ?_⟩
  have ha := enabledOf_nopSlots c _ (nopSlots_map p x sl hp)
  have hb := enabledOf_nopSlots c _ (nopSlots_map q x sl hq)
  unfold enabledOf at *
  rw [loneList, hpq, List.map_append, List.map_cons, List.filter_append, List.filter_cons, ha, hb, if_pos rfl]
  split <;> rfl

end Sys2Proof.Machine

namespace Sys2Proof.Machine

/-! ## What becomes of a bundle of one instruction (R33, R40 to R42, R46, R186) -/

theorem hazard_nop (c : Ctx) : c.hazard (portsOf .nop) = false := rfl

theorem hazard_nopSlots (c : Ctx) {l : List (SlotId × Slot)} (h : NopSlots l) :
    l.any (fun e => c.hazard (portsOf e.2.instr)) = false :=
  List.any_eq_false.2 fun f hf => by
    rw [h f hf, hazard_nop]
    exact Bool.false_ne_true

theorem allNop_meanings {l : List (SlotId × Slot)} (h : NopSlots l) : AllNop (l.map fun e => (e.1, semOf e.2.instr)) := by
  intro f hf
  obtain ⟨e, he, rfl⟩ := List.mem_map.1 hf
  show semOf e.2.instr = semNop
  rw [h e he]
  rfl

section
variable (s : State) (k : CtxKey) (pcn : BitVec 55) (x : SlotId) (sl : Slot)

/-- The latch of a bundle of one instruction. -/
def State.latchLone : State := s.latch k pcn (enabledOf (s.ctx k) (loneList x sl))

/-- Such a bundle run. -/
def State.runLone : State := s.runSlots k pcn (enabledOf (s.ctx k) (loneList x sl))

variable {L : State} (hL : L = s.latchLone k pcn x sl)

include hL in
theorem runLone_disabled (h : slotEnabled sl (s.ctx k) = false) :
    s.runLone k pcn x sl = (L.commitSlots []).withIss {} := by
  subst hL
  obtain ⟨a, b, ha, hb, hen⟩ := enabledOf_lone (s.ctx k) x sl
  rw [h, if_neg Bool.false_ne_true] at hen
  have hab : NopSlots (enabledOf (s.ctx k) (loneList x sl)) := by
    rw [hen]
    exact fun f hf => (List.mem_append.1 hf).elim (ha f) (hb f)
  unfold State.runLone State.runSlots State.latchLone
  rw [hazard_nopSlots _ hab, if_neg Bool.false_ne_true, evaluate_allNop _ (allNop_meanings hab)]

variable (h : slotEnabled sl (s.ctx k) = true)
include h

theorem runLone_hazard (hz : (s.ctx k).hazard (portsOf sl.instr) = true) : s.runLone k pcn x sl = s := by
  obtain ⟨a, b, _, _, hen⟩ := enabledOf_lone (s.ctx k) x sl
  rw [h, if_pos rfl] at hen
  unfold State.runLone State.runSlots
  rw [hen, List.any_append, List.any_cons, hz, Bool.true_or, Bool.or_true, if_pos rfl]

include hL

/-- An instruction that waits for no reply is evaluated among NOPs. -/
theorem runLone_evaluates (hz : (s.ctx k).hazard (portsOf sl.instr) = false) : ∃ a b, AllNop a ∧ AllNop b ∧
    s.runLone k pcn x sl = (L.evaluate (a ++ (x, semOf sl.instr) :: b)).withIss {} := by
  subst hL
  obtain ⟨a, b, ha, hb, hen⟩ := enabledOf_lone (s.ctx k) x sl
  rw [h, if_pos rfl] at hen
  refine ⟨_, _, allNop_meanings ha, allNop_meanings hb, ?_⟩
  unfold State.runLone State.runSlots State.latchLone
  rw [hen, List.any_append, List.any_cons, hz, hazard_nopSlots _ ha, hazard_nopSlots _ hb, Bool.or_false, Bool.or_false,
    if_neg Bool.false_ne_true, List.map_append, List.map_cons]

variable (hz : (s.ctx k).hazard (portsOf sl.instr) = false)
include hz

theorem runLone_holds (hh : (semOf sl.instr).hold L = true) : s.runLone k pcn x sl = L.withIss {} := by
  obtain ⟨a, b, ha, hb, hrun⟩ := runLone_evaluates s k pcn x sl hL h hz
  rw [hrun, evaluate_holds _ ha hb hh]

/-- The instruction takes effect on the state with the PC moved on, as exec gives it there. -/
theorem runLone_completes (hev : isEvent sl.instr = false) (hroom : L.sendStall [(x, semOf sl.instr)] = none)
    (hr : Ready sl.instr L) (hr' : Ready sl.instr (L.commitSlots [])) :
    ∃ t, exec sl.instr (L.commitSlots []) = .next t ∧ s.runLone k pcn x sl = t.withIss {} := by
  obtain ⟨a, b, ha, hb, hrun⟩ := runLone_evaluates s k pcn x sl hL h hz
  obtain ⟨hh, hf, hi, hv, hk, hs⟩ := hr
  obtain ⟨hh', hf', hi', hv', hk', hs'⟩ := hr'
  refine ⟨_, (exec_eq_run _ _ hev).trans (run_completes _ _ hh' hf' hi' hv' hk' hs'), ?_⟩
  rw [hrun, evaluate_completes _ ha hb hh hf hi hv hk hs ((sendStall_lone _ ha hb).trans hroom)]

/-- The instruction traps as exec does, which finds its slot in the latch. -/
theorem runLone_faults (hev : isEvent sl.instr = false) (j : Issue) (hj : j = { L.iss with slot := x })
    (f : TrapInfo) (hh : (semOf sl.instr).hold L = false) (hm : (semOf sl.instr).hold (L.withIss j) = false)
    (hf : (semOf sl.instr).fault L = some f) (hmf : (semOf sl.instr).fault (L.withIss j) = some f) :
    ∃ t, exec sl.instr (L.withIss j) = .next t ∧ s.runLone k pcn x sl = t.withIss {} := by
  obtain ⟨a, b, ha, hb, hrun⟩ := runLone_evaluates s k pcn x sl hL h hz
  have hexec : exec sl.instr (L.withIss j) = .next (issueTrap f (2 ^ x.bit) (L.withIss j)) := by
    rw [exec_eq_run _ _ hev, Sem.run, hm, if_neg Bool.false_ne_true, hmf, hj]
    rfl
  refine ⟨_, hexec, ?_⟩
  rw [hrun, evaluate_faults _ ha hb f hh hf]
  unfold issueTrap
  rw [takeTrap_withIss, hj]
  rfl

/-- The instruction parks as exec does. -/
theorem runLone_parks (hev : isEvent sl.instr = false) (hh : (semOf sl.instr).hold L = false)
    (hf : (semOf sl.instr).fault L = none) (hi : (semOf sl.instr).instead L = none)
    (hv : (semOf sl.instr).arrive L = L) (hk : (semOf sl.instr).block L ≠ []) :
    ∃ t, exec sl.instr L = .next t ∧ s.runLone k pcn x sl = t.withIss {} := by
  obtain ⟨a, b, ha, hb, hrun⟩ := runLone_evaluates s k pcn x sl hL h hz
  obtain ⟨c, cs, hcs⟩ := List.exists_cons_of_ne_nil hk
  refine ⟨_, ?_, by rw [hrun, evaluate_parks _ ha hb hh hf hi hv hk]⟩
  rw [exec_eq_run _ _ hev, Sem.run, hh, if_neg Bool.false_ne_true, hf]
  simp only [hi, hv, hcs]

end

/-! ## The step that issues a bundle (R97) -/

/-- The state at the clk of the first move of the schedule. -/
def State.atMove (s : State) : State :=
  match s.agenda with
  | m :: r => s.popped m r
  | [] => s

/-- The state in which the bundle is evaluated: the issue has begun, and an earlier fetch fault is forgotten (R91). -/
def State.turnState (s : State) (n : CoreNo) (k : CtxKey) : State :=
  (s.atMove.beginIssue n k).mapCtx k fun c => { c with fetchFault := none }

theorem atIssue_eq (s : State) (n : CoreNo) (k : CtxKey) (pcn : BitVec 55) (b : BitVec 384) :
    s.atIssue n k pcn b =
      (s.turnState n k).latch k pcn (enabledOf ((s.turnState n k).ctx k) (okSlots (decodeBundle b))) := rfl

theorem atIssue_lone (s : State) (n : CoreNo) (k : CtxKey) (pcn : BitVec 55) (b : BitVec 384) (x : SlotId) (sl : Slot)
    (hdec : decodeBundle b = loneSlots x sl) : s.atIssue n k pcn b = (s.turnState n k).latchLone k pcn x sl := by
  rw [atIssue_eq, hdec, okSlots_lone]
  rfl

theorem agenda_issueFrame (s : State) (r : List Move) : IssueFrame s { s with agenda := r } :=
  ⟨rfl, fun _ => rfl, fun _ _ => rfl, fun _ => rfl, fun _ => rfl⟩

theorem popped_issueFrame (s : State) (m : Move) (r : List Move) : IssueFrame s (s.popped m r) :=
  issueFrame_trans (agenda_issueFrame s r) (tick_issueFrame _ m.clks)

theorem atMove_issueFrame (s : State) : IssueFrame s s.atMove := by
  unfold State.atMove
  split
  · exact popped_issueFrame s _ _
  · exact agenda_issueFrame s s.agenda

/-- What the bundle is evaluated with of its context: all but the marks of its issue stands as before the step. -/
theorem turnState_ctx (s : State) (n : CoreNo) (k : CtxKey) : (s.turnState n k).ctx k =
    { s.ctx k with
      streams := ((s.turnState n k).ctx k).streams, waking := ((s.turnState n k).ctx k).waking, fetchFault := none } := by
  have h := (issueFrame_trans (atMove_issueFrame s) (beginIssue_issueFrame s.atMove n k)).ctx k
  unfold State.turnState
  rw [State.ctx_mapCtx, if_pos rfl, h]

theorem turnState_iss (s : State) (n : CoreNo) (k : CtxKey) : (s.turnState n k).iss = s.iss := by
  have h := (issueFrame_trans (atMove_issueFrame s) (beginIssue_issueFrame s.atMove n k)).rest
  show (s.atMove.beginIssue n k).iss = s.iss
  rw [h]

/-- A core's turn is a row of the schedule that only the power can stop (R17, R97). -/
theorem rowStop_bundleIssue (s : State) (n : CoreNo) (h : s.powered = true) : s.rowStop (.bundleIssue n) = none := by
  unfold State.rowStop
  rw [h, Bool.not_true, Bool.false_and, if_neg Bool.false_ne_true]
  rfl

theorem fetchTurn_bundle (s : State) (k : CtxKey) (b : BitVec 384) (pcn : BitVec 55) (h : s.fetch k = .bundle b pcn) :
    s.fetchTurn k = (s.mapCtx k fun c => { c with fetchFault := none }).evalBundle k b pcn := by
  unfold State.fetchTurn
  rw [h]

/-- The next step evaluates the bundle. -/
theorem step_evaluates (s : State) (n : CoreNo) (k : CtxKey) (b : BitVec 384) (pcn : BitVec 55)
    (h : IssuesNext s n k b pcn) : step s = .next ((s.turnState n k).evalBundle k b pcn) := by
  obtain ⟨⟨dt, r, hagenda, hpow, hnext, htrap⟩, rfl, hcur, hrun, hduty, hmig, hwake, hfetch⟩ := h
  have hmove : s.popped (.row dt (.bundleIssue (keyCore k))) r = s.atMove := by rw [State.atMove, hagenda]
  have hframe : IssueFrame s s.atMove := atMove_issueFrame s
  have hrest := hframe.rest
  have hclk : s.atMove.clk = s.clk + dt := by
    rw [← hmove]
    exact tick_clk _ dt
  have hwake' : (s.atMove.ctx k).waking = false := by
    rw [← hmove, State.popped, tick_ctx]
    exact hwake
  have hnext' : (s.atMove.core (keyCore k)).nextIssue ≤ s.atMove.clk := by
    rw [hclk, ← hmove, State.popped, tick_core]
    exact hnext
  have hstop : s.atMove.rowStop (.bundleIssue (keyCore k)) = none :=
    rowStop_bundleIssue _ _ (by rw [hrest]; exact hpow)
  have hturn : (s.atMove.markIssue (keyCore k) k).turn k = (s.atMove.beginIssue (keyCore k) k).fetchTurn k :=
    turn_fetches _ _ k hwake' (by rw [hclk, trapDue_issueFrame hframe]; exact htrap) ((migWaits_issueFrame hframe k).trans hmig)
  have hbegin := issueFrame_trans hframe (beginIssue_issueFrame s.atMove (keyCore k) k)
  have hexec : exec (.bundleIssue (keyCore k)) s.atMove = .next ((s.atMove.markIssue (keyCore k) k).turn k) :=
    exec_bundleIssue _ k (by rw [hframe.core]; exact hcur) hnext'
      (by rw [hframe.ctx]; exact hrun) (by rw [hrest]; exact hduty)
  unfold step
  simp only [hagenda, hmove, hstop, hexec, hturn]
  rw [fetchTurn_bundle _ k b pcn ((fetch_issueFrame hbegin k).trans hfetch)]
  rfl

end Sys2Proof.Machine

namespace Sys2Proof.Machine

/-! ## O56 -/

theorem keepsData_trans {s t u : State} (h : KeepsData s t) (g : KeepsData t u) : KeepsData s u := by
  obtain ⟨hctx, hdram, hspad⟩ := h
  obtain ⟨gctx, gdram, gspad⟩ := g
  refine ⟨fun k => ?_, gdram.trans hdram, gspad.trans hspad⟩
  obtain ⟨hregs, hstat, htr⟩ := hctx k
  obtain ⟨gregs, gstat, gtr⟩ := gctx k
  exact ⟨gregs.trans hregs, gstat.trans hstat, gtr.trans htr⟩

/-- A core that may issue takes its turn; where the block of its bundle is not resident, the context waits for it (R91). -/
theorem bundleIssue_fetchWaits (s : State) (k : CtxKey) (hcur : (s.core (keyCore k)).cur = some (keyCtx k))
    (hnext : (s.core (keyCore k)).nextIssue ≤ s.clk) (hrun : (s.ctx k).run = .ready) (hduty : 64 ≤ s.duty) :
    ∃ t, exec (.bundleIssue (keyCore k)) s = .next t ∧
      ∀ w, (s.ctx k).trapDue s.clk = false → s.migWaits k = false → (s.ctx k).waking = false → s.fetch k = .wait w →
        KeepsData s t ∧ (t.ctx k).run = .fetchWait w ∧ (t.ctx k).pc = (s.ctx k).pc := by
  refine ⟨_, exec_bundleIssue s k hcur hnext hrun hduty, fun w htrap hmig hwake hfetch => ?_⟩
  have hframe := beginIssue_issueFrame s (keyCore k) k
  have hfetch' : (s.beginIssue (keyCore k) k).fetch k = .wait w := (fetch_issueFrame hframe k).trans hfetch
  obtain ⟨hkeeps, hwait, hpc⟩ := fetchWait_keeps (s.beginIssue (keyCore k) k) k w
  rw [turn_fetches s _ k hwake htrap hmig, fetchTurn_waits _ k w hfetch']
  refine ⟨keepsData_trans (keepsData_issueFrame hframe) hkeeps, hwait, ?_⟩
  rw [hpc, hframe.ctx]

theorem setWfe_regs (c : Ctx) (r : Option (BitVec 55 × Nat)) : (c.setWfe r).regs = c.regs := by
  unfold Ctx.setWfe
  split <;> rfl

theorem commitSlots_nil_me (s : State) : (s.commitSlots []).me =
    { (s.me.setWfe none).setArrival none with pc := s.iss.pcn, recent := recentBlocks s.iss.blocks s.me.recent } := by
  show (s.commitSlots []).ctx s.iss.key = _
  unfold State.commitSlots
  dsimp only [List.foldl_nil]
  rw [State.ctx_mapCore, State.ctx_mapCtx, if_pos rfl]
  rfl

/-- Settles O56: before the evaluation an issue changes nothing that its bundle looks at, and the NOPs of the bundle
leave its evaluation to the lone slot. -/
theorem stepRunsDecoded : Obligations.StepRunsDecoded := by
  unfold Obligations.StepRunsDecoded
  refine ⟨exec_eq_run, bundleIssue_fetchWaits, ?_⟩
  intro s n k b pcn x sl f i L L' M runs hissue hdec hev hlegal
  have hL : L = (s.turnState n k).latchLone k pcn x sl := atIssue_lone s n k pcn b x sl hdec
  have hctx := turnState_ctx s n k
  have hstep : step s = .next ((s.turnState n k).runLone k pcn x sl) :=
    (step_evaluates s n k b pcn hissue).trans (congrArg _ (evalBundle_lone _ k b pcn x sl hdec hlegal))
  have hen : slotEnabled sl ((s.turnState n k).ctx k) = slotEnabled sl (s.ctx k) := by rw [hctx]; rfl
  have hhaz : ((s.turnState n k).ctx k).hazard (portsOf i) = (s.ctx k).hazard (portsOf i) := by rw [hctx]; rfl
  rw [← hen, ← hhaz]
  have hiss := turnState_iss s n k
  generalize s.turnState n k = u at *
  have hregs : L.iss.regs = (s.ctx k).regs := by
    rw [hL]
    show (u.ctx k).regs = _
    rw [hctx]
  have hpcb : L.iss.pcb = (s.ctx k).pc := by
    rw [hL]
    show (u.ctx k).pc = _
    rw [hctx]
  have hme : L'.me = _ := commitSlots_nil_me L
  refine ⟨hregs, hpcb, ?_, ?_, fun h => ?_, fun h hz => ?_, fun h hz => ⟨fun hh => ?_, fun hroom hr hr' => ?_,
    fun hh hm hf hmf => ?_, fun hh hf hi hv hk => ?_⟩⟩
  · rw [hme, hL]; rfl
  · rw [hme]
    show ((L.me.setWfe none).setArrival none).regs = _
    rw [Ctx.setArrival_regs, setWfe_regs, hL]
    show (u.ctx k).regs = _
    rw [hctx]
  · rw [hstep, runLone_disabled u k pcn x sl hL h]
    rfl
  · rw [hstep, runLone_hazard u k pcn x sl h hz, ← hiss, hL]
    rfl
  · rw [hstep, runLone_holds u k pcn x sl hL h hz hh]
    rfl
  · obtain ⟨t, hexec, hrun⟩ := runLone_completes u k pcn x sl hL h hz hev hroom hr hr'
    exact ⟨t, hexec, by rw [hstep, hrun]; rfl⟩
  · obtain ⟨t, hexec, hrun⟩ := runLone_faults u k pcn x sl hL h hz hev _ rfl f hh hm hf hmf
    exact ⟨t, hexec, by rw [hstep, hrun]; rfl⟩
  · obtain ⟨t, hexec, hrun⟩ := runLone_parks u k pcn x sl hL h hz hev hh hf hi hv hk
    exact ⟨t, hexec, by rw [hstep, hrun]; rfl⟩

end Sys2Proof.Machine
